-- ==== Sys2Proof/Word.lean ====
section
/-! DEFINITION. The words of the part: bytes, addresses, and the numbers of its agents, lines, slots and sets. -/

namespace Sys2Proof

/-- A byte, or one line character (Section 5). -/
abbrev Byte := BitVec 8

/-- A 16-bit field, such as the value of a command word (Section 11.4). -/
abbrev Half := BitVec 16

/-- A 32-bit register or byte address (Introduction, Conventions). -/
abbrev Word := BitVec 32

/-- An agent, 0 to 3; agent 0 is the administrative agent (Introduction). -/
abbrev Agent := Fin 4

/-- A line, 0 to 3 (Introduction). -/
abbrev Line := Fin 4

/-- A plan slot, 0 to 31 (R1). -/
abbrev Slot := Fin 32

/-- A set of the Station Context Cache, 0 to 31 (R109). -/
abbrev SetIndex := Fin 32

end Sys2Proof
end

