-- ==== Sys2Proof/Syntax.lean ====
section
/-! DEFINITION. The commands and events that reach the part: one constructor of `Instr` for each row of
spec/opcode_table.json. -/

namespace Sys2Proof

/-- The two levels of a line (Introduction, Terms). -/
inductive Level where
  | mark
  | space
  deriving DecidableEq, Repr

/-- Memory's answer to a read (R166): accept with the bytes read, or reject. -/
inductive ReadAnswer where
  | accept (data : List Byte)
  | reject
  deriving DecidableEq, Repr

/-- Memory's answer to a write (R166). -/
inductive WriteAnswer where
  | accept
  | reject
  deriving DecidableEq, Repr

/-- The two trip sources that are inputs of the part (R130); THERMAL comes from the zone. -/
inductive TripPin where
  | overcurrent
  | tripInput
  deriving DecidableEq, Repr

/-- A command or event. The first thirteen are the command words of Section 11.4, written by `agent` into its bank. -/
inductive Instr where
  /-- OPEN (R155). -/
  | openPart (agent : Agent)
  /-- CLOSE (R156). -/
  | closePart (agent : Agent)
  /-- RESET_PART (R158). -/
  | resetPart (agent : Agent)
  /-- START (R4). -/
  | start (agent : Agent) (slot : Slot)
  /-- HALT (R14). -/
  | halt (agent : Agent) (slot : Slot)
  /-- RELEASE (R22). -/
  | release (agent : Agent) (slot : Slot)
  /-- FLOOR (R60). -/
  | floor (agent : Agent) (line : Line) (value : Half)
  /-- LINE_ENABLE (R126). -/
  | lineEnable (agent : Agent) (line : Line)
  /-- LINE_DISABLE (R136). -/
  | lineDisable (agent : Agent) (line : Line)
  /-- LINE_RESTORE (R133). -/
  | lineRestore (agent : Agent) (line : Line)
  /-- FLUSH (R119). -/
  | flush (agent : Agent) (line : Line) (station : Byte)
  /-- FLUSH_LINE (R120). -/
  | flushLine (agent : Agent) (line : Line)
  /-- ALARMS_TAKEN (R142). -/
  | alarmsTaken (agent : Agent) (n : Half)
  /-- A 32-bit write of WORK_BASE (R151). -/
  | workBaseWrite (agent : Agent) (value : Word)
  /-- A 32-bit write of ENABLE (R145). -/
  | enableWrite (agent : Agent) (value : Word)
  /-- A read of `count` bytes of SUMMARY from byte `first` on (R144, R150). -/
  | summaryRead (agent : Agent) (first count : Nat)
  /-- A 32-bit write of FAULT_FIRST (R148). -/
  | faultFirstWrite (agent : Agent) (value : Word)
  /-- A 32-bit write of FAULT_NEXT (R148). -/
  | faultNextWrite (agent : Agent) (value : Word)
  /-- A write of `count` bytes at a window offset with any check bit (R150, R151). -/
  | registerWrite (agent : Agent) (check : Bool) (offset : BitVec 6) (count : Nat) (value : Word)
  /-- An access whose check bit disagrees with its agent number (R151). -/
  | accessCheck (agent : Agent) (offset : BitVec 6) (isRead : Bool)
  /-- The reset pin (R157). -/
  | resetPin
  /-- A trip source becomes active (R130). -/
  | tripOnset (line : Line) (source : TripPin)
  /-- A trip source falls back to inactive (R130). -/
  | tripSourceCleared (line : Line) (source : TripPin)
  /-- A sample of the driver's temperature sensor, in whole degrees Celsius (R128). -/
  | temperatureSample (line : Line) (degrees : Int)
  /-- Expiry of the window timer (R129). -/
  | budgetWindowExpiry (line : Line)
  /-- Expiry of the drain timer (R134). -/
  | drainExpiry (line : Line)
  /-- Expiry of the settle timer (R127). -/
  | settleExpiry (line : Line)
  /-- Expiry of a plan's interval timer (R10). -/
  | intervalExpiry (slot : Slot)
  /-- Expiry of a run queue entry's aging timer (R58). -/
  | agingExpiry (slot : Slot)
  /-- Expiry of the pause timer (R36). -/
  | pauseExpiry (line : Line)
  /-- Expiry of the backoff timer (R74). -/
  | backoffExpiry (line : Line)
  /-- The Line Scheduler takes a boundary report (R55). -/
  | boundaryDecision (line : Line)
  /-- An attempt is granted and begins (R69). -/
  | attemptBegin (line : Line)
  /-- The last wake lead character is complete (R93). -/
  | wakeLeadSent (line : Line)
  /-- The request's xor check character is complete (R93). -/
  | requestFrameSent (line : Line)
  /-- Expiry of the reply start timer (R94). -/
  | replyStartTimeout (line : Line)
  /-- A reply character completes: its data bits, its parity bit and the level at its stop bit (R90, R95). -/
  | replyCharacter (line : Line) (data : Byte) (parityBit : Bool) (stopBit : Level)
  /-- Expiry of the character gap timer (R95). -/
  | characterGapExpiry (line : Line)
  /-- The Engine takes a waiting payload byte from the receive FIFO (R75). -/
  | payloadByteTaken (line : Line)
  /-- The receive input goes to space (R99). -/
  | lineActivity (line : Line)
  /-- Expiry of the guard timer (R99). -/
  | guardExpiry (line : Line)
  /-- Expiry of the abort timer (R100). -/
  | abortExpiry (line : Line)
  /-- The Memory Port puts a request on the bus (R165). -/
  | requestIssue
  /-- Expiry of the answer timer (R166). -/
  | answerTimeout
  /-- The answer to START's load read (R5). -/
  | slotLoadAnswer (answer : ReadAnswer)
  /-- The answer to a descriptor read (R28). -/
  | descriptorReadAnswer (answer : ReadAnswer)
  /-- The answer to a request payload read (R68). -/
  | payloadReadAnswer (answer : ReadAnswer)
  /-- The answer to a station record load (R111). -/
  | stationLoadAnswer (answer : ReadAnswer)
  /-- The answer to a reply data write (R76). -/
  | replyDataWriteAnswer (answer : WriteAnswer)
  /-- The answer to a result write (R39). -/
  | resultWriteAnswer (answer : WriteAnswer)
  /-- The answer to a progress write (R18). -/
  | progressWriteAnswer (answer : WriteAnswer)
  /-- The answer to a final status write (R19). -/
  | finalStatusWriteAnswer (answer : WriteAnswer)
  /-- The answer to a station record write-back (R118). -/
  | writebackAnswer (answer : WriteAnswer)
  /-- The answer to the entry write of an append (R140). -/
  | alarmEntryWriteAnswer (answer : WriteAnswer)
  /-- The answer to the count word write of an append or an overflow write (R140, R141). -/
  | alarmCountWriteAnswer (answer : WriteAnswer)
  /-- The answer to the entry read of ALARMS_TAKEN (R142). -/
  | takeReadAnswer (answer : ReadAnswer)
  /-- The answer to the move write of ALARMS_TAKEN (R142). -/
  | moveWriteAnswer (answer : WriteAnswer)
  /-- The answer to the count word write of ALARMS_TAKEN (R142). -/
  | takeCountWriteAnswer (answer : WriteAnswer)
  /-- The answer to a clearing count word write of OPEN (R143). -/
  | clearCountWriteAnswer (answer : WriteAnswer)
  /-- The answer to OPEN's header read (R155). -/
  | headerReadAnswer (answer : ReadAnswer)
  /-- The answer to LINE_ENABLE's setup read (R125). -/
  | setupReadAnswer (answer : ReadAnswer)
  /-- The answer to a power epoch write (R126, R133). -/
  | powerEpochWriteAnswer (answer : WriteAnswer)
  /-- The answer to the epoch write of LINE_DISABLE (R137). -/
  | epochWriteAnswer (answer : WriteAnswer)
  /-- A start bit is confirmed on the receive input (R90, R94, R95). -/
  | startBitConfirmed (line : Line)
  /-- The character being sent completes (R89, R100). -/
  | sentCharacterComplete (line : Line)
  /-- The receive input returns to mark (R99). -/
  | inputReturnsToMark (line : Line)
  deriving DecidableEq, Repr

end Sys2Proof
end

