-- ==== Sys2Proof/Config.lean ====
section
/-! DEFINITION. The free values: what the spec leaves open and no proof may lean on. -/

namespace Sys2Proof

/-- DESIGN CHOICE (log 4): where the spec lets several things of one step be taken in any order, the n-th such choice
of a run is `freeChoice n`, of which nothing is known. -/
opaque Config.freeChoice : Nat → Nat

end Sys2Proof
end

