-- ==== Sys2Proof/Machine/State.lean ====
section
/-! DEFINITION. The state of the part, block by block as the spec's sections give it, the machine right after reset, and
the two reason types of a stop. -/

namespace Sys2Proof.Machine

/-- No event stops the part: the spec names no stop (log 3). A closed type with no reason in it. -/
inductive Fault where
  deriving DecidableEq, Repr

/-- Why a command has no meaning in this model. -/
inductive Refusal where
  /-- Raised by `exec` alone, for a row that has no meaning yet. Safe: the machine stops. No arm raises it now. -/
  | notModelled (mnemonic : String)
  deriving DecidableEq, Repr

/-- A timer: stopped, or running. `remaining` is the time it was last started with (log 1). -/
inductive Timer where
  | stopped
  | running (remaining : Nat)
  deriving DecidableEq, Repr

/-! ### Command Unit (Section 9) -/

/-- The part state (R149). -/
inductive PartState where
  | closed
  | opened
  deriving DecidableEq, Repr

/-- The verdict codes (R153). -/
inductive VerdictCode where
  | none
  | pending
  | done
  | busy
  | notPermitted
  | notOpen
  | wrongState
  | noPlan
  | alreadyEnded
  | slotInUse
  | lineNotReady
  | invalidArgument
  | invalidSetup
  | window
  | loadFault
  | stillTripped
  | abandoned
  deriving DecidableEq, Repr

/-- A command word (R152): its code, line, object and value fields. -/
structure CommandWord where
  code : BitVec 4
  line : Line
  object : Byte
  value : Half
  deriving DecidableEq, Repr

/-- A verdict word (R153): the verdict, its value and the code of the command answered. -/
structure Verdict where
  code : VerdictCode
  value : Half
  command : BitVec 4
  deriving DecidableEq, Repr

/-- A cached station's key: its line and its address (R108). -/
structure Key where
  line : Line
  station : Byte
  deriving DecidableEq, Repr

/-- What a FLUSH or FLUSH_LINE in progress waits for (R119, R120; implied state, log 9): the number of write-backs not yet
answered. `own` says that the FLUSH handed over the write-back itself; `counted` is the FLUSH_LINE's value. -/
inductive FlushWait where
  | none
  | station (key : Key) (own : Bool) (left : Nat)
  | line (line : Line) (left : Nat) (counted : Nat)
  deriving DecidableEq, Repr

/-- One agent's bank (R149), with its ENABLE mask (R145). -/
structure Bank where
  command : Option CommandWord
  verdict : Verdict
  overrun : Bool
  enable : BitVec 7
  flushWait : FlushWait
  deriving DecidableEq, Repr

/-- An agent window (R162): the bytes from base up to, but not including, limit. -/
structure Window where
  base : Word
  limit : Word
  deriving DecidableEq, Repr

/-- The header of the Work Area as OPEN reads it (R155, Section 11.1). -/
structure Header where
  lowMark : Nat
  highMark : Nat
  agingPeriod : Nat
  windows : Vector Window 4
  deriving DecidableEq, Repr

/-- The Command Unit (R149). `openHeader` and `openRejected` belong to an OPEN in progress (R155; implied, log 9). -/
structure CommandUnit where
  partState : PartState
  workBase : Word
  openInProgress : Bool
  openHeader : Option Header
  openRejected : Bool
  banks : Vector Bank 4
  deriving DecidableEq, Repr

/-! ### Plan Unit (Section 1) -/

/-- The states of a plan context (R1). -/
inductive PlanState where
  | idle
  | loading
  | queued
  | active
  | setAside
  | waiting
  | halting
  | ending
  | ended
  deriving DecidableEq, Repr

/-- End codes (R11). -/
inductive EndCode where
  | none
  | done
  | halted
  | faulted
  deriving DecidableEq, Repr

/-- Fault details (R12, R13). -/
inductive FaultDetail where
  | none
  | descriptorInvalid
  | window
  | memoryReject
  | stepLimit
  | exchangeFailed
  | lineCut
  | lineDisabled
  deriving DecidableEq, Repr

/-- Last run results (R1). -/
inductive RunResult where
  | none
  | complete
  deriving DecidableEq, Repr

/-- A plan context (R1). `noteFolded` remembers a progress write folded into the final status write (R18; implied,
log 9). -/
structure Plan where
  state : PlanState
  agent : Agent
  line : Line
  baseClass : Nat
  effClass : Nat
  noteRuns : Bool
  interval : Word
  firstAddr : Word
  label : Word
  currentAddr : Word
  completed : Nat
  runCount : Word
  overruns : Half
  lastRun : RunResult
  notePosition : Nat
  endCode : EndCode
  faultDetail : FaultDetail
  detailLine : Bool
  labelEcho : Word
  intervalTimer : Timer
  intervalExpired : Bool
  outstanding : Nat
  progressOwed : Bool
  savedAfterJump : Bool
  noteFolded : Bool
  deriving DecidableEq, Repr

/-- The backlog, its marks and the PENDING masks (R2, R20, R21). -/
structure Backlog where
  count : Nat
  hold : Bool
  lowMark : Nat
  highMark : Nat
  masks : Vector Word 4
  deriving DecidableEq, Repr

/-! ### Line Scheduler (Section 3) -/

/-- An entry of a run queue (R45). Its kind and its effective class are those of the slot's plan context. -/
structure QueueEntry where
  slot : Slot
  stamp : Nat
  aging : Timer
  deriving DecidableEq, Repr

/-- A Line Scheduler (R45). -/
structure Scheduler where
  holder : Option Slot
  queue : List QueueEntry
  floor : Nat
  stampCounter : Nat
  agingPeriod : Nat
  deriving DecidableEq, Repr

/-! ### Exchange Engine: the walk (Section 2) -/

/-- Descriptor kinds (R24). -/
inductive DescriptorKind where
  | exchange
  | continueReply
  | jump
  | pause
  deriving DecidableEq, Repr

/-- The fields of a fetched descriptor (R24, Section 11.2). `kind` is absent for a code that names no kind. -/
structure Descriptor where
  kind : Option DescriptorKind
  flags : Byte
  station : Byte
  function : Byte
  requestLength : Nat
  capacity : Nat
  duration : Nat
  requestAddr : Word
  replyAddr : Word
  target : Word
  deriving DecidableEq, Repr

/-- Walk states (R26). -/
inductive WalkState where
  | noHolder
  | fetching
  | exchanging
  | pausing
  | atBoundary
  deriving DecidableEq, Repr

/-- A member of a JOIN group (R32) with its count of bytes stored (R34). -/
structure Member where
  addr : Word
  replyAddr : Word
  capacity : Nat
  chain : Bool
  stored : Nat
  deriving DecidableEq, Repr

/-- The walk state of an Exchange Engine (R26). `copy` is the Engine's copy of the EXCHANGE or PAUSE it acts on (R28),
`boundaryHold` the hold of the boundary it reported (R42). -/
structure Walk where
  state : WalkState
  holder : Slot
  nextAddr : Word
  steps : Nat
  afterJump : Bool
  group : List Member
  pause : Timer
  tally : Nat
  writeReject : Bool
  copy : Descriptor
  boundaryHold : Bool
  deriving DecidableEq, Repr

/-! ### Exchange Engine: the exchange in flight (Section 4) -/

/-- Phases of an exchange (R64). -/
inductive Phase where
  | none
  | preparing
  | stalled
  | budgetWait
  | onLine
  | backoff
  | resolving
  deriving DecidableEq, Repr

/-- How the lookup of an exchange in PREPARING or STALLED waits (R66, R110; implied, log 9). -/
inductive LookupWait where
  | none
  | load
  | handover
  | stalled
  deriving DecidableEq, Repr

/-- Results of an attempt (R70, R71). -/
inductive AttemptResult where
  | noReply
  | corrupt
  | stale
  | truncated
  | overrun
  | busy
  | refused
  | valid
  deriving DecidableEq, Repr

/-- Outcome codes of an exchange (R37, R77). -/
inductive ExchangeOutcome where
  | ok
  | sent
  | short
  | long
  | refused
  | busy
  | noReply
  | corrupt
  | stale
  | truncated
  | overrun
  | quarantined
  | recordInvalid
  | cut
  | abandoned
  deriving DecidableEq, Repr

/-- What a valid reply left (R71). -/
structure ValidReply where
  status : Byte
  length : Nat
  refused : Bool
  deriving DecidableEq, Repr

/-- The exchange in flight (R64). `lookup`, `entryHeld`, `finalReply`, `taken`, `control`, `status` and `replyLength` are
implied by R66, R37, R71 and R75 (log 9): how the lookup waits, whether the station's entry is pinned for this exchange, the
reply of the attempt last begun if it was valid, the characters of the reply taken from the FIFO and the header characters
among them. -/
structure Exchange where
  phase : Phase
  station : Byte
  lookup : LookupWait
  entryHeld : Bool
  allowance : Nat
  attempts : Nat
  sentToggle : Bool
  fresh : Bool
  wakeLead : Nat
  txBuffer : List Byte
  retryPending : Bool
  frameBegun : Bool
  anyValid : Bool
  everySilent : Bool
  lastValid : Option ValidReply
  finalReply : Option ValidReply
  finalResult : Option AttemptResult
  storing : Bool
  cursorMember : Nat
  cursorOffset : Nat
  taken : Nat
  control : Byte
  status : Byte
  replyLength : Nat
  backoff : Timer
  abandon : Bool
  outcome : Option ExchangeOutcome
  deriving DecidableEq, Repr

/-! ### Line Controller (Section 5) -/

/-- Line states (R102). -/
inductive LineState where
  | disabled
  | powering
  | ready
  | waking
  | sending
  | awaiting
  | receiving
  | settling
  | aborting
  | cut
  deriving DecidableEq, Repr

/-- The character being sent (R88). -/
inductive TxPosition where
  | none
  | wake (n : Nat)
  | frame (n : Nat)
  deriving DecidableEq, Repr

/-- The guard timer (R99): `held` at the full gap while the input is at space. -/
inductive GuardTimer where
  | stopped
  | held (full : Nat)
  | running (remaining : Nat)
  deriving DecidableEq, Repr

/-- A Line Controller (R88). `input` is the level of the line receive input, a pin (R90). -/
structure LineController where
  state : LineState
  tx : TxPosition
  rx : Option Nat
  expected : Option Nat
  sum : Byte
  xor : Byte
  fifo : List Byte
  replyStart : Timer
  charGap : Timer
  guard : GuardTimer
  abort : Timer
  frameReceived : Bool
  input : Level
  deriving DecidableEq, Repr

/-! ### Driver Monitor (Section 7) -/

/-- Cutoff levels (R124, Section 11.1). -/
inductive Cutoff where
  | float
  | holdMark
  | holdSpace
  | ignore
  deriving DecidableEq, Repr

/-- Temperature zones (R128). -/
inductive Zone where
  | cool
  | warm
  | hot
  deriving DecidableEq, Repr

/-- The progress of a LINE_DISABLE (R123). -/
inductive DisableState where
  | none
  | waitingExchange
  | writingBack
  | writingEpochs
  deriving DecidableEq, Repr

/-- The setup in force (R124), without the two epochs, which the Driver Monitor holds itself. -/
structure Setup where
  speed : Nat
  parity : Bool
  replyStart : Nat
  charGap : Nat
  guardGap : Nat
  busyBackoff : Nat
  retryLimit : Nat
  quarantineLimit : Nat
  releaseLevel : Nat
  cutoff : Cutoff
  drainPeriod : Nat
  warm : Nat
  hot : Nat
  coolBudget : Nat
  warmBudget : Nat
  hotBudget : Nat
  window : Nat
  overcurrent : Nat
  settle : Nat
  tableBase : Word
  deriving DecidableEq, Repr

/-- A Driver Monitor (R123). `pinOvercurrent` and `pinTripInput` are the levels of the two inputs; `overcurrent` and
`tripInput` are the sources as the monitor looks at them (R130). -/
structure Driver where
  setup : Setup
  zone : Zone
  windowCount : Nat
  windowTimer : Timer
  settleTimer : Timer
  drainTimer : Timer
  drainEpoch : Word
  powerEpoch : Word
  overcurrent : Bool
  tripInput : Bool
  disable : DisableState
  pinOvercurrent : Bool
  pinTripInput : Bool
  deriving DecidableEq, Repr

/-! ### Station Context Cache (Section 6) -/

/-- States of a station (R104). -/
inductive StationState where
  | new
  | inService
  | absent
  | quarantined
  deriving DecidableEq, Repr

/-- A station record (R103). An owner of `none` is NONE. -/
structure StationRecord where
  address : Byte
  state : StationState
  toggle : Bool
  toggleKnown : Bool
  toggleEpoch : Word
  owner : Option Agent
  ownerCheck : Bool
  bucket : Nat
  drainMark : Word
  wakeLead : Byte
  lastStatus : Byte
  alarmPending : Bool
  exchanges : Half
  failures : Half
  deriving DecidableEq, Repr

/-- Conditions of a way (R109). -/
inductive WayCondition where
  | free
  | loading
  | valid
  | writing
  deriving DecidableEq, Repr

/-- A way (R108). `loadAgent` is the tag of the load its reservation will make (R111, R114). -/
structure Way where
  condition : WayCondition
  key : Key
  copy : StationRecord
  dirty : Bool
  pinned : Bool
  reserved : Option Key
  loadAgent : Agent
  deriving DecidableEq, Repr

/-- The Station Context Cache (R108). Way w of set i is `ways` 2i + w. `lru` is set when the marker names way 1.
`handWaits` are the lookups that wait in rows 3 and 6 of R110, in the order in which they began to wait (R116). -/
structure Cache where
  ways : Vector Way 64
  lru : Vector Bool 32
  stalls : Vector (List Line) 32
  handWaits : Vector (List Line) 32
  writeBacks : List Key
  deriving DecidableEq, Repr

/-! ### Alarm Unit and Fault Log (Section 8) -/

/-- An alarm handed off (R138). -/
structure Alarm where
  line : Line
  station : Byte
  status : Byte
  deriving DecidableEq, Repr

/-- The memory operation in progress on a list (R138). -/
inductive ListOp where
  | none
  | appending
  | taking
  | overflowWrite
  | clearing
  deriving DecidableEq, Repr

/-- The Alarm Unit's state for one agent (R138). `take` is the number of an ALARMS_TAKEN that waits for the list or moves
entries (R142), `clearOwed` an OPEN's clearing that waits for the list (R143). -/
structure AlarmList where
  count : Nat
  overflow : Bool
  waiting : List Alarm
  op : ListOp
  overflowOwed : Bool
  note : Bool
  take : Option Nat
  clearOwed : Bool
  deriving DecidableEq, Repr

/-- Fault kinds (R147), in the order of their codes. -/
inductive FaultKind where
  | statusLost
  | writebackLost
  | alarmLost
  | contextCheck
  | accessCheck
  | lineTrip
  | tripIgnored
  deriving DecidableEq, Repr

/-- The Fault Log (R146). -/
structure FaultLog where
  valid : Bool
  kind : FaultKind
  line : Line
  place : Byte
  agent : Agent
  nextMask : BitVec 7
  nextCount : Nat
  deriving DecidableEq, Repr

/-! ### Memory Port (Section 10) -/

/-- The twelve blocks that write and read (R163, R164). -/
inductive Requester where
  | commandUnit
  | planUnit
  | engine (line : Line)
  | cache
  | driver (line : Line)
  | alarmUnit
  deriving DecidableEq, Repr

/-- The operation a write's answer is delivered to (R163). A reply data or result write is `live` while its exchange has not
been given up (R44). -/
inductive WriteOp where
  | replyData (line : Line) (slot : Slot) (live : Bool)
  | result (line : Line) (slot : Slot) (live : Bool)
  | progress (slot : Slot)
  | finalStatus (slot : Slot) (note : Bool)
  | writeBack (key : Key)
  | alarmEntry (agent : Agent)
  | appendCount (agent : Agent)
  | overflowCount (agent : Agent)
  | takeMove (agent : Agent)
  | takeCount (agent : Agent)
  | clearCount (agent : Agent)
  | powerEpoch (line : Line)
  | epochs (line : Line)
  deriving DecidableEq, Repr

/-- A write (R163): where, what, for which agent, by whom and for which operation. -/
structure WriteEntry where
  addr : Word
  data : List Byte
  agent : Agent
  writer : Requester
  op : WriteOp
  deriving DecidableEq, Repr

/-- The operation a read's answer is delivered to (R166). -/
inductive ReadOp where
  | header
  | setup (line : Line)
  | slotRecord (slot : Slot)
  | descriptor (line : Line)
  | payload (line : Line)
  | station (key : Key)
  | takeEntries (agent : Agent)
  deriving DecidableEq, Repr

/-- A read (R164). It is not `live` once the reset or a walk given up has taken its answer from its block (R44, R167). -/
structure ReadRequest where
  addr : Word
  length : Nat
  agent : Agent
  requester : Requester
  op : ReadOp
  live : Bool
  deriving DecidableEq, Repr

/-- What a writer waits with (R163): a write, or the payload byte at the head of an Engine's FIFO. -/
inductive WaitItem where
  | write (entry : WriteEntry)
  | payload
  deriving DecidableEq, Repr

/-- A writer that waits, with its writes in its own order (R163). -/
structure Waiter where
  writer : Requester
  items : List WaitItem
  deriving DecidableEq, Repr

/-- The arbiter's preference (R165). -/
inductive Preference where
  | reads
  | writes
  deriving DecidableEq, Repr

/-- The request on the bus (R160); `orphan` is a write whose block a reset has taken away (R167). -/
inductive BusRequest where
  | read (request : ReadRequest)
  | headWrite
  | orphan (entry : WriteEntry)
  deriving DecidableEq, Repr

/-- The Memory Port (R160). `reads` holds the reads of all requesters in order of asking; a requester's own reads are those
of it that name the requester. -/
structure Port where
  windows : Vector Window 4
  queue : List WriteEntry
  waiting : List Waiter
  reads : List ReadRequest
  rotation : Requester
  preference : Preference
  bus : Option BusRequest
  answerTimer : Timer
  deriving DecidableEq, Repr

/-- The state of the part, with the queue of commands that wait (the model's own), the value the last register read returned
and the counter of free choices. -/
structure State where
  pending : List Instr
  unit : CommandUnit
  plans : Vector Plan 32
  backlog : Backlog
  scheds : Vector Scheduler 4
  walks : Vector Walk 4
  exchs : Vector Exchange 4
  lines : Vector LineController 4
  drivers : Vector Driver 4
  cache : Cache
  alarms : Vector AlarmList 4
  log : FaultLog
  port : Port
  readData : Word
  choices : Nat
  deriving DecidableEq, Repr

/-! ### Reset values -/

/-- R149: the bank after the reset pin; R145: every enable clear. -/
def Bank.reset : Bank :=
  { command := none, verdict := { code := .none, value := 0, command := 0 }, overrun := false, enable := 0, flushWait := .none }

/-- R160: a window that contains no byte. -/
def Window.reset : Window := { base := 0, limit := 0 }

/-- R149: the Command Unit after the reset pin. -/
def CommandUnit.reset : CommandUnit :=
  { partState := .closed, workBase := 0, openInProgress := false, openHeader := none, openRejected := false,
    banks := Vector.replicate 4 Bank.reset }

/-- R2: the values of an IDLE plan context. -/
def Plan.reset : Plan :=
  { state := .idle, agent := 0, line := 0, baseClass := 0, effClass := 0, noteRuns := false, interval := 0, firstAddr := 0,
    label := 0, currentAddr := 0, completed := 0, runCount := 0, overruns := 0, lastRun := .none, notePosition := 0,
    endCode := .none, faultDetail := .none, detailLine := false, labelEcho := 0, intervalTimer := .stopped,
    intervalExpired := false, outstanding := 0, progressOwed := false, savedAfterJump := false, noteFolded := false }

/-- R2: backlog, marks and PENDING masks after a reset. -/
def Backlog.reset : Backlog :=
  { count := 0, hold := false, lowMark := 0, highMark := 0, masks := Vector.replicate 4 0 }

/-- R45: a Line Scheduler after a reset. -/
def Scheduler.reset : Scheduler :=
  { holder := none, queue := [], floor := 0, stampCounter := 0, agingPeriod := 0 }

/-- DESIGN CHOICE (log 10): the descriptor copy of an Engine that has fetched nothing. -/
def Descriptor.reset : Descriptor :=
  { kind := none, flags := 0, station := 0, function := 0, requestLength := 0, capacity := 0, duration := 0, requestAddr := 0,
    replyAddr := 0, target := 0 }

/-- R26: the walk after a reset. -/
def Walk.reset : Walk :=
  { state := .noHolder, holder := 0, nextAddr := 0, steps := 0, afterJump := false, group := [], pause := .stopped, tally := 0,
    writeReject := false, copy := Descriptor.reset, boundaryHold := false }

/-- R64: the exchange record after a reset. -/
def Exchange.reset : Exchange :=
  { phase := .none, station := 0, lookup := .none, entryHeld := false, allowance := 0, attempts := 0, sentToggle := false,
    fresh := false, wakeLead := 0, txBuffer := [], retryPending := false, frameBegun := false, anyValid := false,
    everySilent := false, lastValid := none, finalReply := none, finalResult := none, storing := false, cursorMember := 0,
    cursorOffset := 0, taken := 0, control := 0, status := 0, replyLength := 0, backoff := .stopped, abandon := false,
    outcome := none }

/-- R88: a Line Controller after a reset. The level of the receive input is a pin: mark, DESIGN CHOICE (log 10). -/
def LineController.reset : LineController :=
  { state := .disabled, tx := .none, rx := none, expected := none, sum := 0, xor := 0, fifo := [], replyStart := .stopped,
    charGap := .stopped, guard := .stopped, abort := .stopped, frameReceived := false, input := .mark }

/-- R123: every field 0, cutoff level FLOAT. -/
def Setup.reset : Setup :=
  { speed := 0, parity := false, replyStart := 0, charGap := 0, guardGap := 0, busyBackoff := 0, retryLimit := 0,
    quarantineLimit := 0, releaseLevel := 0, cutoff := .float, drainPeriod := 0, warm := 0, hot := 0, coolBudget := 0,
    warmBudget := 0, hotBudget := 0, window := 0, overcurrent := 0, settle := 0, tableBase := 0 }

/-- R123: a Driver Monitor after a reset. The two inputs are pins: inactive, DESIGN CHOICE (log 10). -/
def Driver.reset : Driver :=
  { setup := Setup.reset, zone := .cool, windowCount := 0, windowTimer := .stopped, settleTimer := .stopped,
    drainTimer := .stopped, drainEpoch := 0, powerEpoch := 0, overcurrent := false, tripInput := false, disable := .none,
    pinOvercurrent := false, pinTripInput := false }

/-- The copy of a way that holds nothing: R108 says "discarded"; its fields are a DESIGN CHOICE (log 10). -/
def StationRecord.reset : StationRecord :=
  { address := 0, state := .new, toggle := false, toggleKnown := false, toggleEpoch := 0, owner := none, ownerCheck := false,
    bucket := 0, drainMark := 0, wakeLead := 0, lastStatus := 0, alarmPending := false, exchanges := 0, failures := 0 }

/-- R108: a way after a reset. -/
def Way.reset : Way :=
  { condition := .free, key := { line := 0, station := 1 }, copy := StationRecord.reset, dirty := false, pinned := false,
    reserved := none, loadAgent := 0 }

/-- R108: the cache after a reset. -/
def Cache.reset : Cache :=
  { ways := Vector.replicate 64 Way.reset, lru := Vector.replicate 32 false, stalls := Vector.replicate 32 [],
    handWaits := Vector.replicate 32 [], writeBacks := [] }

/-- R138: the Alarm Unit's state for one agent after a reset. -/
def AlarmList.reset : AlarmList :=
  { count := 0, overflow := false, waiting := [], op := .none, overflowOwed := false, note := false, take := none,
    clearOwed := false }

/-- R146: the Fault Log after the reset pin. -/
def FaultLog.reset : FaultLog :=
  { valid := false, kind := .statusLost, line := 0, place := 0, agent := 0, nextMask := 0, nextCount := 0 }

/-- R160: the Memory Port after a reset with nothing on the bus. -/
def Port.reset : Port :=
  { windows := Vector.replicate 4 Window.reset, queue := [], waiting := [], reads := [], rotation := .commandUnit,
    preference := .reads, bus := none, answerTimer := .stopped }

/-- The machine right after reset (R157): every block at the value its section gives for the reset pin, no command waiting. -/
def State.reset : State :=
  { pending := [], unit := CommandUnit.reset, plans := Vector.replicate 32 Plan.reset, backlog := Backlog.reset,
    scheds := Vector.replicate 4 Scheduler.reset, walks := Vector.replicate 4 Walk.reset,
    exchs := Vector.replicate 4 Exchange.reset, lines := Vector.replicate 4 LineController.reset,
    drivers := Vector.replicate 4 Driver.reset, cache := Cache.reset, alarms := Vector.replicate 4 AlarmList.reset,
    log := FaultLog.reset, port := Port.reset, readData := 0, choices := 0 }

end Sys2Proof.Machine
end

