-- ==== Sys2Proof/Machine/Ops.lean ====
section
/-! DEFINITION. The named operations over the state: reading and changing one block's state, bytes and byte order, free
orders, the Fault Log's record and the Command Unit's verdicts. -/

namespace Sys2Proof.Machine

/-! ### Bytes (Introduction, Conventions: little-endian) -/

/-- The byte at offset `i` of a record. -/
def byteAt (bytes : List Byte) (i : Nat) : Byte := bytes.getD i 0

/-- The 16-bit field at offset `i`. -/
def halfAt (bytes : List Byte) (i : Nat) : Half := byteAt bytes (i + 1) ++ byteAt bytes i

/-- The 32-bit field at offset `i`. -/
def wordAt (bytes : List Byte) (i : Nat) : Word :=
  byteAt bytes (i + 3) ++ byteAt bytes (i + 2) ++ byteAt bytes (i + 1) ++ byteAt bytes i

/-- The two bytes of a 16-bit field, least significant first. -/
def halfBytes (h : Half) : List Byte := [h.extractLsb' 0 8, h.extractLsb' 8 8]

/-- The four bytes of a 32-bit field, least significant first. -/
def wordBytes (w : Word) : List Byte :=
  [w.extractLsb' 0 8, w.extractLsb' 8 8, w.extractLsb' 16 8, w.extractLsb' 24 8]

/-- A count as one byte of a record. -/
def natByte (n : Nat) : Byte := BitVec.ofNat 8 n

/-- A flag as a byte with bit `i` set or clear. -/
def flagByte (b : Bool) (i : Nat) : Byte := if b then BitVec.twoPow 8 i else 0

/-- A byte's bits that name an agent, line or other number below four. -/
def low2 (b : Byte) : Fin 4 := ⟨b.toNat % 4, Nat.mod_lt _ (by decide)⟩

/-- A count that rises by 1 and stays at 65,535 (R9, R79). -/
def satHalf (h : Half) : Half := if h = 0xFFFF then h else h + 1

/-! ### One block's state -/

/-- A vector with one element replaced. -/
def upd {α : Type} {n : Nat} (v : Vector α n) (i : Fin n) (x : α) : Vector α n := v.set i.val x i.isLt

def State.plan (s : State) (i : Slot) : Plan := s.plans.get i
def State.setPlan (s : State) (i : Slot) (p : Plan) : State := { s with plans := upd s.plans i p }
def State.modPlan (s : State) (i : Slot) (f : Plan → Plan) : State := s.setPlan i (f (s.plan i))

def State.sched (s : State) (l : Line) : Scheduler := s.scheds.get l
def State.setSched (s : State) (l : Line) (x : Scheduler) : State := { s with scheds := upd s.scheds l x }
def State.modSched (s : State) (l : Line) (f : Scheduler → Scheduler) : State := s.setSched l (f (s.sched l))

def State.walk (s : State) (l : Line) : Walk := s.walks.get l
def State.setWalk (s : State) (l : Line) (x : Walk) : State := { s with walks := upd s.walks l x }
def State.modWalk (s : State) (l : Line) (f : Walk → Walk) : State := s.setWalk l (f (s.walk l))

def State.exch (s : State) (l : Line) : Exchange := s.exchs.get l
def State.setExch (s : State) (l : Line) (x : Exchange) : State := { s with exchs := upd s.exchs l x }
def State.modExch (s : State) (l : Line) (f : Exchange → Exchange) : State := s.setExch l (f (s.exch l))

def State.lineCtl (s : State) (l : Line) : LineController := s.lines.get l
def State.setLine (s : State) (l : Line) (x : LineController) : State := { s with lines := upd s.lines l x }
def State.modLine (s : State) (l : Line) (f : LineController → LineController) : State := s.setLine l (f (s.lineCtl l))

def State.driver (s : State) (l : Line) : Driver := s.drivers.get l
def State.setDriver (s : State) (l : Line) (x : Driver) : State := { s with drivers := upd s.drivers l x }
def State.modDriver (s : State) (l : Line) (f : Driver → Driver) : State := s.setDriver l (f (s.driver l))

def State.alarm (s : State) (k : Agent) : AlarmList := s.alarms.get k
def State.setAlarm (s : State) (k : Agent) (x : AlarmList) : State := { s with alarms := upd s.alarms k x }
def State.modAlarm (s : State) (k : Agent) (f : AlarmList → AlarmList) : State := s.setAlarm k (f (s.alarm k))

def State.bank (s : State) (k : Agent) : Bank := s.unit.banks.get k
def State.setBank (s : State) (k : Agent) (x : Bank) : State :=
  { s with unit := { s.unit with banks := upd s.unit.banks k x } }
def State.modBank (s : State) (k : Agent) (f : Bank → Bank) : State := s.setBank k (f (s.bank k))

def State.setUnit (s : State) (x : CommandUnit) : State := { s with unit := x }
def State.setBacklog (s : State) (x : Backlog) : State := { s with backlog := x }
def State.setCache (s : State) (x : Cache) : State := { s with cache := x }
def State.setLog (s : State) (x : FaultLog) : State := { s with log := x }
def State.setPort (s : State) (x : Port) : State := { s with port := x }
def State.setReadData (s : State) (x : Word) : State := { s with readData := x }
def State.setChoices (s : State) (n : Nat) : State := { s with choices := n }
def State.setPending (s : State) (q : List Instr) : State := { s with pending := q }

/-- The four lines, which are also the four agents' numbers. -/
def allFour : List (Fin 4) := [0, 1, 2, 3]

/-- The 32 slots. -/
def allSlots : List Slot := List.finRange 32

/-! ### Timers -/

/-- A timer that runs. -/
def Timer.isRunning : Timer → Bool
  | .stopped => false
  | .running _ => true

/-! ### Orders the spec leaves free (log 4) -/

/-- `x` put before the element of `l` with index `n`, or at the end. -/
def insertAt {α : Type} : Nat → α → List α → List α
  | 0, x, l => x :: l
  | _ + 1, x, [] => [x]
  | n + 1, x, y :: l => y :: insertAt n x l

/-- A rearrangement of a list by free choices, with the counter of choices moved on; every order is one of them. -/
def freeOrder {α : Type} : Nat → List α → List α × Nat
  | n, [] => ([], n)
  | n, [x] => ([x], n)
  | n, x :: y :: r =>
      let p := freeOrder n (y :: r)
      (insertAt (Config.freeChoice p.2 % (p.1.length + 1)) x p.1, p.2 + 1)

/-- Acts on each element of a list in a free order. -/
def State.inFreeOrder {α : Type} (s : State) (l : List α) (act : α → State → State) : State :=
  let p := freeOrder s.choices l
  p.1.foldl (fun t x => act x t) (s.setChoices p.2)

/-! ### Fault Log (R146) -/

/-- The code of a fault kind (Section 11.5). -/
def FaultKind.code : FaultKind → Nat
  | .statusLost => 0
  | .writebackLost => 1
  | .alarmLost => 2
  | .contextCheck => 3
  | .accessCheck => 4
  | .lineTrip => 5
  | .tripIgnored => 6

/-- R146: a reported fault fills FAULT_FIRST, or sets its kind's mark and raises the FAULT_NEXT count. -/
def FaultLog.record (g : FaultLog) (kind : FaultKind) (line : Line) (place : Byte) (agent : Agent) : FaultLog :=
  if g.valid then
    { g with nextMask := g.nextMask ||| BitVec.twoPow 7 kind.code, nextCount := if g.nextCount < 255 then g.nextCount + 1 else g.nextCount }
  else
    { g with valid := true, kind := kind, line := line, place := place, agent := agent }

/-- A block reports a fault (R146, R147). -/
def recordFault (kind : FaultKind) (line : Line) (place : Byte) (agent : Agent) (s : State) : State :=
  s.setLog (s.log.record kind line place agent)

/-! ### Verdicts (R153) -/

/-- The code of the command in progress, 0 where there is none (R170). -/
def Bank.commandCode (b : Bank) : BitVec 4 :=
  match b.command with
  | some w => w.code
  | none => 0

/-- R153: the final verdict is posted and the command in progress becomes none. -/
def Bank.post (b : Bank) (code : VerdictCode) (value : Half) : Bank :=
  { b with verdict := { code := code, value := value, command := b.commandCode }, command := none, flushWait := .none }

/-- R152: a command that takes time reads PENDING, value 0. -/
def Bank.postPending (b : Bank) : Bank :=
  { b with verdict := { code := .pending, value := 0, command := b.commandCode } }

def postVerdict (k : Agent) (code : VerdictCode) (value : Half) (s : State) : State := s.modBank k (·.post code value)

def postPending (k : Agent) (s : State) : State := s.modBank k Bank.postPending

/-- The value of DONE where it shows whether a write was accepted (R126, R133, R137, R155). -/
def writeValue (accepted : Bool) : Half := if accepted then 0 else 1

/-- Whether an answer accepts. -/
def acceptedBy : WriteAnswer → Bool
  | .accept => true
  | .reject => false

end Sys2Proof.Machine
end

