-- ==== Sys2Proof/Machine/Port.lean ====
section
/-! DEFINITION. The Memory Port (Section 10): windows, the posting queue and its waiting writes, reads, the arbiter. -/

namespace Sys2Proof.Machine

/-- The posting queue's room (R163). -/
def queueCapacity : Nat := 16

/-- R161: the check bit a request carries beside its agent number; R151: the check bit that agrees. -/
def checkBit (k : Agent) : Bool := k = 1 || k = 2

/-! ### Windows (R162) -/

/-- The `n` bytes from `a` lie inside the window; a range that wraps past the top lies inside none, since a limit is a
32-bit address. A range of 0 bytes is not checked. -/
def Window.contains (w : Window) (a : Word) (n : Nat) : Bool :=
  n == 0 || (decide (w.base.toNat ≤ a.toNat) && decide (a.toNat + n ≤ w.limit.toNat))

/-- Agent `k`'s window, as the port holds it. -/
def Port.window (p : Port) (k : Agent) : Window := p.windows.get k

/-! ### The posting queue (R163) -/

/-- A write of an Engine's FIFO byte or of a block, by its wait item. -/
def WaitItem.isWrite : WaitItem → Bool
  | .write _ => true
  | .payload => false

/-- A write becomes a new entry at once: the queue has room, and nothing that was handed over before it still waits. Room that
stands while something waits is kept for a payload byte that is first (log 5). -/
def Port.takesAtOnce (p : Port) : Bool := decide (p.queue.length < queueCapacity) && p.waiting.isEmpty

/-- R163, R165: a write joins the tail; a join that brings the queue to 12 entries turns the preference to WRITES. -/
def Port.join (p : Port) (e : WriteEntry) : Port :=
  { p with queue := p.queue ++ [e], preference := if p.queue.length + 1 = 12 then .writes else p.preference }

/-- An item put behind the other items of its writer, and a writer that did not wait behind the writers that do. -/
def addWaiting (w : Requester) (item : WaitItem) : List Waiter → List Waiter
  | [] => [{ writer := w, items := [item] }]
  | x :: rest =>
      if x.writer = w then { x with items := x.items ++ [item] } :: rest else x :: addWaiting w item rest

/-- R163: a block hands a write over: a new entry, or a waiting write of its writer. -/
def Port.handOver (p : Port) (e : WriteEntry) : Port :=
  if p.takesAtOnce then p.join e else { p with waiting := addWaiting e.writer (.write e) p.waiting }

/-- R163: when the queue has room, the first waiting write, in order of waiting, joins the tail, and its writer's next write
waits behind those of the other writers. A payload byte that is first keeps the room until its Engine takes it (log 5). -/
def Port.joinWaiting (p : Port) : Option (WriteEntry × Port) :=
  if p.queue.length < queueCapacity then
    match p.waiting with
    | { writer := w, items := .write e :: rest } :: others =>
        let waiting := if rest.isEmpty then others else others ++ [{ writer := w, items := rest }]
        some (e, ({ p with waiting := waiting }).join e)
    | _ => none
  else none

/-- R163, R165: the head entry leaves with its answer; 4 or fewer entries left turn the preference to READS. -/
def Port.leaveHead (p : Port) : Port :=
  { p with queue := p.queue.tail, bus := none, answerTimer := .stopped,
           preference := if p.queue.tail.length ≤ 4 then .reads else p.preference }

/-- The bus is free again (R166). -/
def Port.release (p : Port) : Port := { p with bus := none, answerTimer := .stopped }

/-! ### Reply data (R163, R75) -/

/-- The tail entry is the one on the bus. -/
def Port.tailOnBus (p : Port) : Bool := decide (p.bus = some .headWrite) && decide (p.queue.length = 1)

/-- R163 Merge: the tail is a reply data write of the same exchange and not on the bus, the byte follows the tail's last
byte, and it lies in the 32-byte aligned block of the tail's first byte. -/
def Port.canMerge (p : Port) (l : Line) (addr : Word) : Bool :=
  match p.queue.getLast? with
  | none => false
  | some t =>
      (match t.op with
        | .replyData l' _ live => decide (l' = l) && live
        | _ => false)
      && !p.tailOnBus
      && decide (t.addr + BitVec.ofNat 32 t.data.length = addr)
      && decide (addr.toNat / 32 = t.addr.toNat / 32)

/-- The tail carries one byte more. -/
def Port.mergeByte (p : Port) (b : Byte) : Port :=
  match p.queue.getLast? with
  | none => p
  | some t => { p with queue := p.queue.dropLast ++ [{ t with data := t.data ++ [b] }] }

/-- An Engine's payload byte can become a new entry: there is room, and either nothing waits or this byte is the first in the
order of waiting (log 5). -/
def Port.roomForPayload (p : Port) (l : Line) : Bool :=
  decide (p.queue.length < queueCapacity) &&
    match p.waiting with
    | [] => true
    | x :: _ => decide (x.writer = .engine l) && decide (x.items.head? = some .payload)

/-- The Engine of line `l` waits with the payload byte at the head of its FIFO. -/
def Port.waitPayload (p : Port) (l : Line) : Port :=
  if p.waiting.any fun x => decide (x.writer = .engine l) && x.items.contains .payload then p
  else { p with waiting := addWaiting (.engine l) .payload p.waiting }

/-- The Engine of line `l` waits with no payload byte any more. -/
def Port.dropPayloadWait (p : Port) (l : Line) : Port :=
  let stripped := p.waiting.map fun x =>
    if x.writer = .engine l then { x with items := x.items.filter WaitItem.isWrite } else x
  { p with waiting := stripped.filter fun x => !x.items.isEmpty }

/-! ### Exchanges and walks given up (R44) -/

/-- The operation of a write whose exchange on line `l` has been given up. -/
def WriteOp.detach (l : Line) : WriteOp → WriteOp
  | .replyData l' slot live => .replyData l' slot (live && decide (l' ≠ l))
  | .result l' slot live => .result l' slot (live && decide (l' ≠ l))
  | .progress slot => .progress slot
  | .finalStatus slot note => .finalStatus slot note
  | .writeBack key => .writeBack key
  | .alarmEntry k => .alarmEntry k
  | .appendCount k => .appendCount k
  | .overflowCount k => .overflowCount k
  | .takeMove k => .takeMove k
  | .takeCount k => .takeCount k
  | .clearCount k => .clearCount k
  | .powerEpoch l' => .powerEpoch l'
  | .epochs l' => .epochs l'

def WriteEntry.detach (l : Line) (e : WriteEntry) : WriteEntry := { e with op := e.op.detach l }

def WaitItem.detach (l : Line) : WaitItem → WaitItem
  | .write e => .write (e.detach l)
  | .payload => .payload

/-- A descriptor or payload read of line `l`'s Engine is delivered to no walk any more (R26, R44). -/
def ReadRequest.detach (l : Line) (r : ReadRequest) : ReadRequest :=
  if r.op = .descriptor l ∨ r.op = .payload l then { r with live := false } else r

def BusRequest.detach (l : Line) : BusRequest → BusRequest
  | .read r => .read (r.detach l)
  | .headWrite => .headWrite
  | .orphan e => .orphan e

/-- R44: the requests of line `l`'s walk and exchange stay as queued, and their answers reach neither. -/
def Port.detach (p : Port) (l : Line) : Port :=
  { p with queue := p.queue.map (·.detach l),
           waiting := p.waiting.map (fun x => { x with items := x.items.map (·.detach l) }),
           reads := p.reads.map (·.detach l),
           bus := p.bus.map (·.detach l) }

/-! ### Reads and the arbiter (R164, R165) -/

/-- R164: two ranges of bytes share a byte; addresses are taken modulo 2^32. -/
def overlaps (a : Word) (n : Nat) (b : Word) (m : Nat) : Bool :=
  decide ((b - a).toNat < n) || decide ((a - b).toNat < m)

/-- R164: a read is ready when no entry of the posting queue overlaps it. -/
def Port.ready (p : Port) (r : ReadRequest) : Bool :=
  p.queue.all fun e => !overlaps r.addr r.length e.addr e.data.length

/-- R164: the fixed rotation of the twelve requesters. -/
def rotation : List Requester :=
  [.commandUnit, .planUnit, .engine 0, .engine 1, .engine 2, .engine 3, .cache,
    .driver 0, .driver 1, .driver 2, .driver 3, .alarmUnit]

/-- The rotation from one requester on. -/
def rotationFrom (q : Requester) : List Requester :=
  rotation.dropWhile (fun x => decide (x ≠ q)) ++ rotation.takeWhile (fun x => decide (x ≠ q))

/-- The requester after one in the rotation. -/
def nextRequester (q : Requester) : Requester :=
  match rotationFrom q with
  | _ :: n :: _ => n
  | _ => .commandUnit

/-- The oldest ready read of a requester. -/
def Port.oldestReady (p : Port) (q : Requester) : Option ReadRequest :=
  p.reads.find? fun r => decide (r.requester = q) && p.ready r

/-- R164: the read to be issued, looked for from the rotation position on. -/
def Port.chooseRead (p : Port) : Option ReadRequest := (rotationFrom p.rotation).findSome? p.oldestReady

/-- The time memory has to answer, in ms (R166). -/
def answerTime : Nat := 2

def Port.issueRead (p : Port) (r : ReadRequest) : Port :=
  { p with bus := some (.read r), reads := p.reads.erase r, rotation := nextRequester r.requester,
           answerTimer := .running answerTime }

def Port.issueWrite (p : Port) : Port := { p with bus := some .headWrite, answerTimer := .running answerTime }

/-- R165: what the port issues when the bus is free. -/
def Port.issue (p : Port) : Port :=
  if p.bus.isSome then p
  else
    match p.preference, p.chooseRead, p.queue with
    | .reads, some r, _ => p.issueRead r
    | .reads, none, _ :: _ => p.issueWrite
    | .reads, none, [] => p
    | .writes, _, _ :: _ => p.issueWrite
    | .writes, some r, [] => p.issueRead r
    | .writes, none, [] => p

/-- A block asks for a read (R164). -/
def Port.ask (p : Port) (r : ReadRequest) : Port := { p with reads := p.reads ++ [r] }

/-! ### Reset (R160, R167) -/

/-- The request on the bus stays there; it will be delivered to no block. -/
def Port.orphanBus (p : Port) : Option BusRequest :=
  match p.bus with
  | none => none
  | some (.read r) => some (.read { r with live := false })
  | some .headWrite =>
      match p.queue with
      | e :: _ => some (.orphan e)
      | [] => none
  | some (.orphan e) => some (.orphan e)

/-- R167: everything not on the bus is discarded; windows, rotation position and preference take the values of R160. -/
def Port.resetKeepingBus (p : Port) : Port :=
  { Port.reset with bus := p.orphanBus, answerTimer := if p.orphanBus.isSome then p.answerTimer else .stopped }

/-! ### On the state -/

def handOver (e : WriteEntry) (s : State) : State := s.setPort (s.port.handOver e)

def askRead (r : ReadRequest) (s : State) : State := s.setPort (s.port.ask r)

end Sys2Proof.Machine
end

