-- ==== Sys2Proof/Machine/Operands.lean ====
section
/-! DEFINITION. The formats (Section 11): where each record lies, how the part reads a record's bytes, which checks a record
must pass, and which bytes the part writes. -/

namespace Sys2Proof.Machine

/-! ### Places in the Work Area (Section 11.1); addresses are taken modulo 2^32 (log 8) -/

def lineRecordAddr (base : Word) (l : Line) : Word := base + 0x40 + BitVec.ofNat 32 (0x40 * l.val)
def slotRecordAddr (base : Word) (i : Slot) : Word := base + 0x140 + BitVec.ofNat 32 (0x40 * i.val)
def alarmListAddr (base : Word) (k : Agent) : Word := base + 0x940 + BitVec.ofNat 32 (0x50 * k.val)
def alarmEntryAddr (base : Word) (k : Agent) (place : Nat) : Word :=
  alarmListAddr base k + 0x10 + BitVec.ofNat 32 (4 * place)

/-- R103: the station record of station a lies at the table base plus (a - 1) × 32. -/
def stationAddr (tableBase : Word) (station : Byte) : Word :=
  tableBase + BitVec.ofNat 32 ((station.toNat - 1) * 32)

/-! ### Header (R155) -/

def windowAt (data : List Byte) (k : Agent) : Window :=
  { base := wordAt data (0x10 + 8 * k.val), limit := wordAt data (0x14 + 8 * k.val) }

def headerOf (data : List Byte) : Header :=
  { lowMark := (byteAt data 4).toNat, highMark := (byteAt data 5).toNat, agingPeriod := (wordAt data 8).toNat,
    windows := Vector.ofFn (windowAt data) }

/-- R155 checks 3 to 6: base and limit each a multiple of 32, and base below limit. -/
def Window.isLegal (w : Window) : Bool :=
  decide (w.base.toNat % 32 = 0) && decide (w.limit.toNat % 32 = 0) && decide (w.base.toNat < w.limit.toNat)

/-- R155: the verdict of the first check that fails, or the header. -/
def checkHeader : ReadAnswer → Except (VerdictCode × Half) Header
  | .reject => .error (.loadFault, 0)
  | .accept data =>
      let h := headerOf data
      if wordAt data 0 ≠ 1 then .error (.invalidSetup, 2)
      else if !(windowAt data 0).isLegal then .error (.invalidSetup, 3)
      else if !(windowAt data 1).isLegal then .error (.invalidSetup, 4)
      else if !(windowAt data 2).isLegal then .error (.invalidSetup, 5)
      else if !(windowAt data 3).isLegal then .error (.invalidSetup, 6)
      else if !(decide (1 ≤ h.lowMark) && decide (h.lowMark < h.highMark) && decide (h.highMark ≤ 32)) then
        .error (.invalidSetup, 7)
      else if 65535 < h.agingPeriod then .error (.invalidSetup, 8)
      else .ok h

/-! ### Line setup record (R124, R125) -/

def cutoffOf (b : Byte) : Option Cutoff :=
  if b = 0 then some .float else if b = 1 then some .holdMark else if b = 2 then some .holdSpace
  else if b = 3 then some .ignore else none

def setupOf (data : List Byte) (cutoff : Cutoff) : Setup :=
  { speed := (byteAt data 0x00).toNat, parity := decide (byteAt data 0x01 ≠ 0), replyStart := (halfAt data 0x02).toNat,
    charGap := (byteAt data 0x04).toNat, guardGap := (byteAt data 0x05).toNat, busyBackoff := (halfAt data 0x06).toNat,
    retryLimit := (byteAt data 0x08).toNat, quarantineLimit := (byteAt data 0x09).toNat,
    releaseLevel := (byteAt data 0x0A).toNat, cutoff := cutoff, drainPeriod := (halfAt data 0x0C).toNat,
    warm := (byteAt data 0x0E).toNat, hot := (byteAt data 0x0F).toNat, coolBudget := (byteAt data 0x10).toNat,
    warmBudget := (byteAt data 0x11).toNat, hotBudget := (byteAt data 0x12).toNat, window := (byteAt data 0x13).toNat,
    overcurrent := (byteAt data 0x14).toNat, settle := (halfAt data 0x16).toNat, tableBase := wordAt data 0x18 }

/-- `n` lies from `low` to `high`. -/
def inRange (low n high : Nat) : Bool := decide (low ≤ n) && decide (n ≤ high)

/-- R125 check 11: the rank of a COOL or WARM budget, 0 (unlimited) above every number. -/
def budgetRank (n : Nat) : Nat := if n = 0 then 256 else n

/-- R125: the setup, or the verdict of the first check that fails. -/
def checkSetup : ReadAnswer → Except (VerdictCode × Half) Setup
  | .reject => .error (.loadFault, 0)
  | .accept data =>
      let u := setupOf data ((cutoffOf (byteAt data 0x0B)).getD .float)
      if 7 < u.speed then .error (.invalidSetup, 2)
      else if !inRange 1 u.replyStart 2000 then .error (.invalidSetup, 3)
      else if !inRange 2 u.charGap 32 then .error (.invalidSetup, 4)
      else if !inRange 1 u.guardGap 32 then .error (.invalidSetup, 5)
      else if !inRange 1 u.busyBackoff 5000 then .error (.invalidSetup, 6)
      else if 7 < u.retryLimit then .error (.invalidSetup, 7)
      else if !(inRange 1 u.quarantineLimit 15 && decide (u.releaseLevel < u.quarantineLimit)) then
        .error (.invalidSetup, 8)
      else if u.drainPeriod = 0 then .error (.invalidSetup, 9)
      else if !(inRange 40 u.warm 150 && inRange 40 u.hot 150 && decide (u.warm < u.hot)) then .error (.invalidSetup, 10)
      else if !(decide (budgetRank u.warmBudget ≤ budgetRank u.coolBudget)
          && decide (u.hotBudget ≤ budgetRank u.warmBudget)) then .error (.invalidSetup, 11)
      else if !inRange 1 u.window 100 then .error (.invalidSetup, 12)
      else if !inRange 1 u.overcurrent 50 then .error (.invalidSetup, 13)
      else if (cutoffOf (byteAt data 0x0B)).isNone || (decide (u.cutoff = .ignore) && decide (u.hotBudget = 0)) then
        .error (.invalidSetup, 14)
      else if 5000 < u.settle then .error (.invalidSetup, 15)
      else if u.tableBase.toNat % 32 ≠ 0 then .error (.invalidSetup, 16)
      else .ok u

/-- The epoch fields of the setup record (R126). -/
def drainEpochAt (data : List Byte) : Word := wordAt data 0x30
def powerEpochAt (data : List Byte) : Word := wordAt data 0x34

/-- The bytes an answer carries. -/
def bytesOf : ReadAnswer → List Byte
  | .accept data => data
  | .reject => []

/-! ### Slot record (R3, R18) -/

def EndCode.byte : EndCode → Byte
  | .none => 0
  | .done => 1
  | .halted => 2
  | .faulted => 3

def FaultDetail.byte : FaultDetail → Byte
  | .none => 0
  | .descriptorInvalid => 1
  | .window => 2
  | .memoryReject => 3
  | .stepLimit => 4
  | .exchangeFailed => 5
  | .lineCut => 6
  | .lineDisabled => 7

def RunResult.byte : RunResult → Byte
  | .none => 0
  | .complete => 1

/-- R18, R168: the status part, slot record 20h to 3Fh, with the end code the write carries. -/
def Plan.statusPart (p : Plan) (endCode : EndCode) : List Byte :=
  [endCode.byte, p.faultDetail.byte, flagByte p.detailLine 0, p.lastRun.byte]
    ++ wordBytes p.currentAddr
    ++ [natByte p.completed, natByte p.notePosition]
    ++ halfBytes p.overruns
    ++ wordBytes p.runCount
    ++ wordBytes p.labelEcho
    ++ List.replicate 12 0

/-! ### Descriptors (R24, R25, R37) -/

def kindOf (b : Byte) : Option DescriptorKind :=
  if b = 1 then some .exchange else if b = 2 then some .continueReply else if b = 3 then some .jump
  else if b = 4 then some .pause else none

def descriptorOf (data : List Byte) : Descriptor :=
  { kind := kindOf (byteAt data 0x00), flags := byteAt data 0x01, station := byteAt data 0x02, function := byteAt data 0x03,
    requestLength := (byteAt data 0x04).toNat, capacity := (byteAt data 0x05).toNat, duration := (halfAt data 0x06).toNat,
    requestAddr := wordAt data 0x08, replyAddr := wordAt data 0x0C, target := wordAt data 0x10 }

def Descriptor.chain (d : Descriptor) : Bool := d.flags.getLsbD 0
def Descriptor.join (d : Descriptor) : Bool := d.flags.getLsbD 1
def Descriptor.shortOk (d : Descriptor) : Bool := d.flags.getLsbD 2
def Descriptor.tolerate (d : Descriptor) : Bool := d.flags.getLsbD 3
def Descriptor.note (d : Descriptor) : Bool := d.flags.getLsbD 4
def Descriptor.claim (d : Descriptor) : Bool := d.flags.getLsbD 5
def Descriptor.hold (d : Descriptor) : Bool := d.flags.getLsbD 6

/-- Outcome codes (Section 11.2). -/
def ExchangeOutcome.byte : ExchangeOutcome → Byte
  | .ok => 1
  | .sent => 2
  | .short => 3
  | .long => 4
  | .refused => 5
  | .busy => 6
  | .noReply => 7
  | .corrupt => 8
  | .stale => 9
  | .truncated => 10
  | .overrun => 11
  | .quarantined => 12
  | .recordInvalid => 13
  | .cut => 14
  | .abandoned => 15

/-- The outcome code UNUSED of a CONTINUE that received no bytes (R37). -/
def unusedByte : Byte := 16

/-- R37, R168: a result part, descriptor 18h to 1Fh. The reply fields are those of the final attempt's valid reply. -/
def resultPart (outcome : Byte) (attempts stored : Nat) (reply : Option ValidReply) : List Byte :=
  [outcome, natByte attempts, natByte stored,
    (match reply with | some r => natByte r.length | none => 0),
    (match reply with | some r => r.status | none => 0), 0, 0, 0]

/-! ### Station records (R103, R106) -/

def stationStateOf (b : Byte) : Option StationState :=
  if b = 0 then some .new else if b = 1 then some .inService else if b = 2 then some .absent
  else if b = 3 then some .quarantined else none

def StationState.byte : StationState → Byte
  | .new => 0
  | .inService => 1
  | .absent => 2
  | .quarantined => 3

/-- An owner byte: an agent, or NONE; R169: a byte of 4 to FEh is no owner and becomes NONE at the load. -/
def ownerOf (b : Byte) : Option Agent := if b.toNat < 4 then some (low2 b) else none

def ownerByte : Option Agent → Byte
  | some k => BitVec.ofNat 8 k.val
  | none => 0xFF

/-- R106: the owner check that agrees with an owner. -/
def agreeingCheck : Option Agent → Bool
  | some k => decide (k = 1) || decide (k = 2)
  | none => true

/-- R106, R169: an owner byte agrees with the owner check; a byte of 4 to FEh agrees with neither value. -/
def ownerByteAgrees (b : Byte) (check : Bool) : Bool :=
  (decide (b.toNat < 4) || decide (b = 0xFF)) && decide (check = agreeingCheck (ownerOf b))

/-- The record as it is copied at a load; unused bytes and bits are ignored (R168, R169). -/
def stationRecordOf (data : List Byte) (state : StationState) : StationRecord :=
  { address := byteAt data 0x00, state := state, toggle := (byteAt data 0x02).getLsbD 0,
    toggleKnown := (byteAt data 0x02).getLsbD 1, toggleEpoch := wordAt data 0x04, owner := ownerOf (byteAt data 0x03),
    ownerCheck := (byteAt data 0x02).getLsbD 2, bucket := (byteAt data 0x0C).toNat, drainMark := wordAt data 0x08,
    wakeLead := byteAt data 0x0D, lastStatus := byteAt data 0x0E, alarmPending := (byteAt data 0x02).getLsbD 3,
    exchanges := halfAt data 0x10, failures := halfAt data 0x12 }

/-- The link flags byte (Section 11.2); bits 4 to 7 are written as zero (R168). -/
def StationRecord.linkFlags (r : StationRecord) : Byte :=
  flagByte r.toggle 0 ||| flagByte r.toggleKnown 1 ||| flagByte r.ownerCheck 2 ||| flagByte r.alarmPending 3

/-- R118, R168: the 32 bytes of a write-back. -/
def StationRecord.bytes (r : StationRecord) : List Byte :=
  [r.address, r.state.byte, r.linkFlags, ownerByte r.owner]
    ++ wordBytes r.toggleEpoch ++ wordBytes r.drainMark
    ++ [natByte r.bucket, r.wakeLead, r.lastStatus, 0]
    ++ halfBytes r.exchanges ++ halfBytes r.failures
    ++ List.replicate 12 0

/-- R111 checks 2 to 4: the record of a load that was accepted, if it is usable for the key's station. -/
def usableRecord (data : List Byte) (station : Byte) : Option StationRecord :=
  if byteAt data 0x00 ≠ station then none
  else
    match stationStateOf (byteAt data 0x01) with
    | none => none
    | some st => if 15 < (byteAt data 0x0C).toNat then none else some (stationRecordOf data st)

/-! ### Alarm lists (R140 to R143, R168) -/

/-- The 4 bytes of an entry. -/
def Alarm.bytes (a : Alarm) : List Byte := [BitVec.ofNat 8 a.line.val, a.station, a.status, 0]

/-- The 4 bytes of the count word. -/
def countWord (count : Nat) (overflow : Bool) : List Byte := [natByte count, flagByte overflow 0, 0, 0]

/-- R168: a move write copies each entry's first three bytes and writes its last as zero. -/
def moveBytes : List Byte → List Byte
  | a :: b :: c :: _ :: rest => [a, b, c, 0] ++ moveBytes rest
  | _ => []

/-! ### Characters (R89, R90) -/

/-- A bit on the wire: 1 is mark, 0 is space (R89). -/
def levelOf (bit : Bool) : Level := if bit then .mark else .space

/-- The number of 1 bits among the data bits. -/
def onesIn (data : Byte) : Nat := ((List.range 8).filter fun i => data.getLsbD i).length

/-- R89: the parity bit that makes the number of 1 bits among data and parity bits even. -/
def parityOf (data : Byte) : Bool := decide (onesIn data % 2 = 1)

/-- R90: the even parity of data and parity bits. -/
def evenParity (data : Byte) (parityBit : Bool) : Bool :=
  decide ((onesIn data + (if parityBit then 1 else 0)) % 2 = 0)

/-- R89: the levels of a character, one for each bit time: a start bit at space, the data bits with the least significant first,
the parity bit where parity is on, and a stop bit at mark. -/
def characterLevels (parity : Bool) (data : Byte) : List Level :=
  .space :: ((List.range 8).map fun i => levelOf (data.getLsbD i))
    ++ (if parity then [levelOf (parityOf data)] else []) ++ [.mark]

/-- R89: the bit times of a character. -/
def characterBits (parity : Bool) : Nat := if parity then 11 else 10

/-- R89: the bit rate of a speed code, in bit/s. -/
def bitRate (speed : Nat) : Nat := 300 * 2 ^ speed

/-- R89: the character time in microseconds, rounded as in the rule's table. -/
def characterTime (speed : Nat) (parity : Bool) : Nat :=
  (1000000 * characterBits parity + bitRate speed / 2) / bitRate speed

/-! ### Frames (R91, R92, Section 11.3) -/

def wakeCharacter : Byte := 0x55
def requestLead : Byte := 0xD2
def replyLead : Byte := 0xB4

/-- The control character of a request. -/
def controlCharacter (toggle fresh : Bool) : Byte := flagByte toggle 0 ||| flagByte fresh 1

/-- Bit 0 of the control echo. -/
def toggleEcho (control : Byte) : Bool := control.getLsbD 0
/-- Bit 7 of the control echo. -/
def refusalFlag (control : Byte) : Bool := control.getLsbD 7
/-- Bit 0 of the station status. -/
def busyBit (status : Byte) : Bool := status.getLsbD 0
/-- Bit 1 of the station status. -/
def alarmBit (status : Byte) : Bool := status.getLsbD 1

/-- R91: the sum, modulo 256, of characters. -/
def sumCheck (cs : List Byte) : Byte := cs.foldl (· + ·) 0
/-- R91: the exclusive-or of characters. -/
def xorCheck (cs : List Byte) : Byte := cs.foldl (· ^^^ ·) 0

/-- R91: the request frame of an attempt, after its wake lead. -/
def requestFrame (station control function : Byte) (payload : List Byte) : List Byte :=
  let body := [station, control, function, natByte payload.length] ++ payload
  [requestLead] ++ body ++ [sumCheck body, xorCheck body]

/-! ### Command and verdict words (Section 11.4) -/

/-- R152: the fields of a command word; bits 6 and 7 are ignored (R169). -/
def commandWordOf (w : Word) : CommandWord :=
  { code := w.extractLsb' 0 4, line := ⟨(w.toNat / 16) % 4, Nat.mod_lt _ (by decide)⟩, object := w.extractLsb' 8 8,
    value := w.extractLsb' 16 16 }

/-- R169: the slot of START, HALT and RELEASE is bits 8 to 12; bits 13 to 15 are ignored. -/
def CommandWord.slot (w : CommandWord) : Slot := ⟨w.object.toNat % 32, Nat.mod_lt _ (by decide)⟩

def VerdictCode.code : VerdictCode → Nat
  | .none => 0
  | .pending => 1
  | .done => 2
  | .busy => 3
  | .notPermitted => 4
  | .notOpen => 5
  | .wrongState => 6
  | .noPlan => 7
  | .alreadyEnded => 8
  | .slotInUse => 9
  | .lineNotReady => 10
  | .invalidArgument => 11
  | .invalidSetup => 12
  | .window => 13
  | .loadFault => 14
  | .stillTripped => 15
  | .abandoned => 16

/-- The verdict word as a register read shows it. -/
def Verdict.word (v : Verdict) : Word :=
  BitVec.ofNat 32 (v.code.code + 256 * v.command.toNat + 65536 * v.value.toNat)

end Sys2Proof.Machine
end

