-- ==== Sys2Proof/Machine/Flags.lean ====
section
/-! DEFINITION. What the register window shows and what the part's outputs are: the conditions of an agent, SUMMARY,
the attention lines, the value of each register (R144, R145, R150, Section 11.5). -/

namespace Sys2Proof.Machine

/-! ### Conditions (R144) -/

def State.mask (s : State) (k : Agent) : Word := s.backlog.masks.get k

/-- CUT: some line's state is CUT. -/
def State.someLineCut (s : State) : Bool := allFour.any fun l => decide ((s.lineCtl l).state = .cut)

/-- The six SUMMARY flags of an agent (R144), at the bits of Section 11.5. FAULT and CUT read as clear for agents 1 to 3. -/
def State.summary (s : State) (k : Agent) : BitVec 7 :=
  let flag (b : Bool) (i : Nat) : BitVec 7 := if b then BitVec.twoPow 7 i else 0
  flag (s.alarm k).note 1 ||| flag (decide (0 < (s.alarm k).count)) 2 ||| flag (s.alarm k).overflow 3
    ||| flag (s.bank k).overrun 4 ||| flag (decide (k = 0) && s.log.valid) 5
    ||| flag (decide (k = 0) && s.someLineCut) 6

/-- All seven conditions, with PENDING nonzero at bit 0 as in the ENABLE mask. -/
def State.conditions (s : State) (k : Agent) : BitVec 7 :=
  s.summary k ||| (if s.mask k = 0 then 0 else 1)

/-- R145: attention line k is high while an enabled condition of agent k holds. -/
def State.attention (s : State) (k : Agent) : Bool := decide (s.conditions k &&& (s.bank k).enable ≠ 0)

/-! ### Registers (R150, R170, Section 11.5) -/

/-- IDENT: part number 0440h, revision 01h, vendor code 4Ch. -/
def identValue : Word := 0x4C010440

def boolNat (b : Bool) : Nat := if b then 1 else 0

/-- PART: part state, backlog hold, backlog count and the two marks. -/
def State.partWord (s : State) : Word :=
  BitVec.ofNat 32 (boolNat (decide (s.unit.partState = .opened)) + 2 * boolNat s.backlog.hold + 256 * s.backlog.count
    + 65536 * s.backlog.lowMark + 16777216 * s.backlog.highMark)

/-- FAULT_FIRST: valid, kind, line, place, agent. -/
def FaultLog.firstWord (g : FaultLog) : Word :=
  BitVec.ofNat 32 (boolNat g.valid + 256 * g.kind.code + 4096 * g.line.val + 65536 * g.place.toNat
    + 16777216 * g.agent.val)

/-- FAULT_NEXT: mask and count; bit 31 reads as 0. -/
def FaultLog.nextWord (g : FaultLog) : Word := BitVec.ofNat 32 (g.nextMask.toNat + 65536 * g.nextCount)

/-- The value a register shows to an agent, at its offset in the window; offsets 24h to 3Ch show 0. -/
def State.readRegister (s : State) (k : Agent) (offset : Nat) : Word :=
  if offset = 0x00 then identValue
  else if offset = 0x04 then s.partWord
  else if offset = 0x08 then s.unit.workBase
  else if offset = 0x0C then s.log.firstWord
  else if offset = 0x10 then s.log.nextWord
  else if offset = 0x14 then (s.bank k).verdict.word
  else if offset = 0x18 then s.mask k
  else if offset = 0x1C then (s.summary k).setWidth 32
  else if offset = 0x20 then (s.bank k).enable.setWidth 32
  else 0

/-- `count` bytes of a register from byte `first` on, as a read of fewer than 4 bytes returns them (R150). -/
def readLanes (value : Word) (first count : Nat) : Word :=
  (value >>> (8 * first)) &&& (BitVec.allOnes 32 >>> (32 - 8 * count))

/-! ### Driver outputs (R89, R102, R127) -/

/-- What a line's driver does: while it is `sending`, it drives the levels of the character being sent (`State.sentLevels`). -/
inductive DriverLevel where
  | floats
  | mark
  | space
  | sending
  deriving DecidableEq, Repr

/-- The driver level of a cut line, by its cutoff level (R127). -/
def Cutoff.level : Cutoff → DriverLevel
  | .float => .floats
  | .holdMark => .mark
  | .holdSpace => .space
  | .ignore => .mark

/-- The driver of a line in each line state (R102, R127). -/
def State.driverLevel (s : State) (l : Line) : DriverLevel :=
  match (s.lineCtl l).state with
  | .disabled => .floats
  | .powering => .mark
  | .ready => .mark
  | .waking => .sending
  | .sending => .sending
  | .awaiting => .mark
  | .receiving => .mark
  | .settling => .mark
  | .aborting => .space
  | .cut => (s.driver l).setup.cutoff.level

end Sys2Proof.Machine
end

