-- ==== Sys2Proof/Machine/PlanUnit.lean ====
section
/-! DEFINITION. The Plan Unit (Section 1): status writes and their answers, the end of a plan, the backlog. -/

namespace Sys2Proof.Machine

/-! ### Status writes (R18, R19) -/

/-- A status write of a slot: the status part at slot record 20h, tagged with the plan's agent. -/
def statusEntry (i : Slot) (endCode : EndCode) (op : WriteOp) (s : State) : WriteEntry :=
  { addr := slotRecordAddr s.unit.workBase i + 0x20, data := (s.plan i).statusPart endCode, agent := (s.plan i).agent,
    writer := .planUnit, op := op }

/-- R19: the final status write of an ENDING plan is queued, carrying a folded note. -/
def queueFinal (i : Slot) (s : State) : State :=
  let p := s.plan i
  (handOver (statusEntry i p.endCode (.finalStatus i p.noteFolded) s) s).modPlan i fun p => { p with noteFolded := false }

/-- R18: the plan owes a progress write that can be queued: no write of the plan is outstanding, and the plan has not ended. -/
def Plan.progressDue (p : Plan) : Bool :=
  p.progressOwed && decide (p.outstanding = 0) && decide (p.state ≠ .ending) && decide (p.state ≠ .ended)

/-- R18: a progress write owed is queued when no write of the plan is outstanding; it carries end code NONE. -/
def pumpProgress (i : Slot) (s : State) : State :=
  if (s.plan i).progressDue then
    (handOver (statusEntry i .none (.progress i) s) s).modPlan i fun p =>
      { p with progressOwed := false, outstanding := p.outstanding + 1 }
  else s

/-- R18: a write queued on a plan's behalf has been answered. -/
def planWriteAnswered (i : Slot) (s : State) : State :=
  s.modPlan i fun p => { p with outstanding := p.outstanding - 1 }

/-- R19: an ENDING plan whose last outstanding write has just been answered queues its final status write; a plan that has
not ended queues a progress write it owes. -/
def reportAfterAnswer (i : Slot) (s : State) : State :=
  if (s.plan i).state = .ending then
    if (s.plan i).outstanding = 0 then queueFinal i s else s
  else pumpProgress i s

/-- R9, R43: a note is taken: the note position becomes descriptors completed, and a progress write is owed. -/
def takeNote (i : Slot) (s : State) : State :=
  s.modPlan i fun p => { p with notePosition := p.completed, progressOwed := true }

/-! ### The end of a plan (R11, R17) -/

/-- The plan has not been started, or has ended: no ending event changes it (R17). -/
def PlanState.isOver : PlanState → Bool
  | .idle => true
  | .ending => true
  | .ended => true
  | _ => false

/-- R11, R18: what ending changes in the context: end code, fault detail, timer, the folding of an owed progress write. -/
def Plan.toEnding (p : Plan) (code : EndCode) (detail : FaultDetail) : Plan :=
  { p with state := .ending, endCode := code, faultDetail := if code = .faulted then detail else .none,
           intervalTimer := .stopped, noteFolded := p.noteFolded || p.progressOwed, progressOwed := false }

/-- R11: ends a plan; its final status write follows at once when no write of it is outstanding (R19). Where the plan stood
(its queue or its line) is left by the caller. -/
def endPlan (i : Slot) (code : EndCode) (detail : FaultDetail) (s : State) : State :=
  if (s.plan i).state.isOver then s
  else
    let s := s.modPlan i (·.toEnding code detail)
    if (s.plan i).outstanding = 0 then queueFinal i s else s

/-! ### Backlog and PENDING (R20, R21) -/

/-- R20, R21: a plan of agent `k` in slot `i` enters ENDED. -/
def Backlog.enter (b : Backlog) (isOpen : Bool) (k : Agent) (i : Slot) : Backlog :=
  { b with count := b.count + 1, hold := b.hold || (isOpen && decide (b.highMark ≤ b.count + 1)),
           masks := upd b.masks k (b.masks.get k ||| BitVec.twoPow 32 i.val) }

/-- R20 to R22: a plan of agent `k` in slot `i` leaves ENDED by RELEASE; a count at or below the low mark clears the hold. -/
def Backlog.leave (b : Backlog) (k : Agent) (i : Slot) : Backlog :=
  { b with count := b.count - 1, hold := b.hold && !decide (b.count - 1 ≤ b.lowMark),
           masks := upd b.masks k (b.masks.get k &&& ~~~(BitVec.twoPow 32 i.val)) }

/-- R19: the final status write is answered. The plan becomes ENDED whatever the answer. -/
def finalAnswered (i : Slot) (note accepted : Bool) (s : State) : State :=
  let p := s.plan i
  if p.state = .ending then
    let s := s.modPlan i fun p => { p with state := .ended }
    let s := s.setBacklog (s.backlog.enter (decide (s.unit.partState = .opened)) p.agent i)
    let s := if note then s.modAlarm p.agent fun a => { a with note := true } else s
    if accepted then s else recordFault .statusLost p.line (BitVec.ofNat 8 i.val) p.agent s
  else s

/-- R18: a progress write is answered: the NOTE flag of the plan's agent is set, and a reject is logged. -/
def progressAnswered (i : Slot) (accepted : Bool) (s : State) : State :=
  let p := s.plan i
  let s := s.modAlarm p.agent fun a => { a with note := true }
  let s := if accepted then s else recordFault .statusLost p.line (BitVec.ofNat 8 i.val) p.agent s
  reportAfterAnswer i (planWriteAnswered i s)

end Sys2Proof.Machine
end

