-- ==== Sys2Proof/Machine/AlarmUnit.lean ====
section
/-! DEFINITION. The Alarm Unit (Section 8): hand-offs, appends, overflow writes, takes and the clearing at OPEN. -/

namespace Sys2Proof.Machine

/-- The places of an alarm list (R139). -/
def alarmCapacity : Nat := 16

/-- R139: the room test at a hand-off. -/
def AlarmList.handOff (a : AlarmList) (x : Alarm) : AlarmList :=
  if a.count + a.waiting.length < alarmCapacity then { a with waiting := a.waiting ++ [x] }
  else { a with overflow := true, overflowOwed := a.overflowOwed || !a.overflow }

/-- A write of the Alarm Unit, tagged with the list's agent (R161). -/
def alarmWrite (k : Agent) (addr : Word) (data : List Byte) (op : WriteOp) (s : State) : State :=
  handOver { addr := addr, data := data, agent := k, writer := .alarmUnit, op := op } s

/-- R140 step 1: the entry write of the first waiting alarm, at place number count. -/
def beginAppend (k : Agent) (x : Alarm) (s : State) : State :=
  alarmWrite k (alarmEntryAddr s.unit.workBase k (s.alarm k).count) x.bytes (.alarmEntry k)
    (s.modAlarm k fun a => { a with op := .appending })

/-- R141: the overflow write, which carries the count and overflow set, whatever has become of the overflow state since the write
was owed (log 11). -/
def beginOverflowWrite (k : Agent) (s : State) : State :=
  alarmWrite k (alarmListAddr s.unit.workBase k) (countWord (s.alarm k).count true) (.overflowCount k)
    (s.modAlarm k fun a => { a with op := .overflowWrite, overflowOwed := false })

/-- R142 step 3: the count word write of a take that leaves `m` entries. -/
def takeCountWrite (k : Agent) (m : Nat) (s : State) : State :=
  alarmWrite k (alarmListAddr s.unit.workBase k) (countWord m false) (.takeCount k)
    (s.modAlarm k fun a => { a with overflowOwed := false })

/-- The number of entries a take leaves (R142). -/
def AlarmList.remaining (a : AlarmList) : Nat := a.count - a.take.getD 0

/-- The take of `k` ends: the list is free again. -/
def AlarmList.endTake (a : AlarmList) : AlarmList := { a with op := .none, take := none }

/-- R142: the list is free and the take acts on its number as it compares with the count. -/
def startTake (k : Agent) (n : Nat) (s : State) : State :=
  let a := s.alarm k
  if a.count < n then postVerdict k .invalidArgument 0 (s.modAlarm k AlarmList.endTake)
  else if n = 0 then postVerdict k .done (BitVec.ofNat 16 a.count) (s.modAlarm k AlarmList.endTake)
  else
    let s := s.modAlarm k fun a => { a with op := .taking }
    if a.count - n = 0 then takeCountWrite k 0 s
    else
      askRead { addr := alarmEntryAddr s.unit.workBase k n, length := 4 * (a.count - n), agent := k, requester := .alarmUnit,
                op := .takeEntries k, live := true } s

/-- R143: the state of a list that an OPEN clears. -/
def AlarmList.cleared (a : AlarmList) : AlarmList :=
  { a with count := 0, overflow := false, op := .clearing, clearOwed := false }

/-- R143: the clearing count word write. -/
def clearWrite (k : Agent) (s : State) : State :=
  alarmWrite k (alarmListAddr s.unit.workBase k) (countWord 0 false) (.clearCount k) s

/-- A waiting take is acted on once the list is free (R142). -/
def serveTake (k : Agent) (s : State) : State :=
  match (s.alarm k).op, (s.alarm k).take with
  | .none, some n => startTake k n s
  | _, _ => s

/-- What a list with no operation does next: a take that waits (R142), an OPEN's clearing (R143), an append (R140), an
overflow write (R141). -/
def pumpList (k : Agent) (s : State) : State :=
  let s := serveTake k s
  let a := s.alarm k
  if a.op ≠ .none then s
  else if a.clearOwed then clearWrite k (s.modAlarm k AlarmList.cleared)
  else
    match a.waiting with
    | x :: _ => beginAppend k x s
    | [] => if a.overflowOwed then beginOverflowWrite k s else s

/-- R81, R139: an Engine hands an alarm off to agent `k`. -/
def handOffAlarm (k : Agent) (x : Alarm) (s : State) : State := pumpList k (s.modAlarm k (·.handOff x))

/-! ### Answers -/

/-- R140: the alarm of an append is lost with its line, station and agent. -/
def alarmLost (k : Agent) (s : State) : State :=
  match (s.alarm k).waiting with
  | x :: _ => recordFault .alarmLost x.line x.station k s
  | [] => s

/-- R147: a count word write with no single alarm behind it is lost. -/
def countWordLost (k : Agent) (accepted : Bool) (s : State) : State :=
  if accepted then s else recordFault .alarmLost 0 0 k s

/-- R140: the alarm leaves the waiting alarms and the list operation ends; an accepted count word raises the count. -/
def AlarmList.endAppend (a : AlarmList) (counted : Bool) : AlarmList :=
  match a.waiting with
  | _ :: rest => { a with waiting := rest, count := if counted then a.count + 1 else a.count, op := .none }
  | [] => { a with op := .none }

/-- R140 step 2. -/
def entryAnswered (k : Agent) (accepted : Bool) (s : State) : State :=
  if accepted then
    alarmWrite k (alarmListAddr s.unit.workBase k) (countWord ((s.alarm k).count + 1) (s.alarm k).overflow) (.appendCount k)
      (s.modAlarm k fun a => { a with overflowOwed := false })
  else pumpList k ((alarmLost k s).modAlarm k (·.endAppend false))

/-- R140 step 3. -/
def appendCountAnswered (k : Agent) (accepted : Bool) (s : State) : State :=
  if accepted then pumpList k (s.modAlarm k (·.endAppend true))
  else pumpList k ((alarmLost k s).modAlarm k (·.endAppend false))

/-- R141: the overflow write is answered. -/
def overflowAnswered (k : Agent) (accepted : Bool) (s : State) : State :=
  pumpList k ((countWordLost k accepted s).modAlarm k fun a => { a with op := .none })

/-- R142 step 1 answered. -/
def takeReadAnswered (k : Agent) (a : ReadAnswer) (s : State) : State :=
  match a with
  | .reject => pumpList k (postVerdict k .loadFault 1 (s.modAlarm k AlarmList.endTake))
  | .accept data => alarmWrite k (alarmEntryAddr s.unit.workBase k 0) (moveBytes data) (.takeMove k) s

/-- R142 step 2 answered. -/
def moveAnswered (k : Agent) (accepted : Bool) (s : State) : State :=
  if accepted then takeCountWrite k (s.alarm k).remaining s
  else pumpList k (postVerdict k .loadFault 2 (s.modAlarm k AlarmList.endTake))

/-- R142 step 3 answered: the count becomes m and overflow is cleared, whatever the answer. -/
def takeCountAnswered (k : Agent) (accepted : Bool) (s : State) : State :=
  let m := (s.alarm k).remaining
  let s := (countWordLost k accepted s).modAlarm k fun a => { a.endTake with count := m, overflow := false }
  pumpList k (postVerdict k .done (BitVec.ofNat 16 m) s)

/-! ### The clearing at OPEN (R143) -/

/-- At once at OPEN: waiting alarms are discarded, but the one whose append is in progress runs to its end, and the clearing
is owed. -/
def AlarmList.openClears (a : AlarmList) : AlarmList :=
  { a with waiting := if a.op = .appending then a.waiting.take 1 else [], overflowOwed := false, clearOwed := true }

/-- A list that owes its clearing and has no operation and no take. -/
def State.clearReady (s : State) (k : Agent) : Bool :=
  (s.alarm k).clearOwed && decide ((s.alarm k).op = .none) && decide ((s.alarm k).take = none)

/-- R143: every list owes its clearing, and those that are free are cleared; their four writes are handed over in any order
(log 4). -/
def clearLists (s : State) : State :=
  let s := allFour.foldl (fun t k => t.modAlarm k AlarmList.openClears) s
  let ready := allFour.filter fun k => s.clearReady k
  let s := ready.foldl (fun t k => t.modAlarm k AlarmList.cleared) s
  s.inFreeOrder ready clearWrite

/-- R143: all four lists have been cleared and answered. -/
def State.allCleared (s : State) : Bool :=
  allFour.all fun k => !(s.alarm k).clearOwed && decide ((s.alarm k).op ≠ .clearing)

end Sys2Proof.Machine
end

