-- ==== Sys2Proof/Machine/Station.lean ====
section
/-! DEFINITION. Station contexts (Section 6.1) and the ways of the cache as an exchange uses them: sets and ways, the entry
an exchange holds, and the changes a record undergoes. -/

namespace Sys2Proof.Machine

/-! ### Sets and ways (R108, R109) -/

/-- R109: station a of line L belongs to set (a + 8 × L) mod 32. -/
def setOf (k : Key) : SetIndex := ⟨(k.station.toNat + 8 * k.line.val) % 32, Nat.mod_lt _ (by decide)⟩

/-- Way 0 of a set. -/
def way0 (i : SetIndex) : Fin 64 := ⟨2 * i.val, by omega⟩
/-- Way 1 of a set. -/
def way1 (i : SetIndex) : Fin 64 := ⟨2 * i.val + 1, by omega⟩
/-- The two ways of a set, way 0 first. -/
def waysOf (i : SetIndex) : List (Fin 64) := [way0 i, way1 i]
/-- The set of a way. -/
def setOfWay (n : Fin 64) : SetIndex := ⟨n.val / 2, by omega⟩

def State.way (s : State) (n : Fin 64) : Way := s.cache.ways.get n
def State.setWay (s : State) (n : Fin 64) (w : Way) : State := s.setCache { s.cache with ways := upd s.cache.ways n w }
def State.modWay (s : State) (n : Fin 64) (f : Way → Way) : State := s.setWay n (f (s.way n))

/-- The LRU marker of the set of way `n` names that way. -/
def lruNames (n : Fin 64) (s : State) : State :=
  s.setCache { s.cache with lru := upd s.cache.lru (setOfWay n) (decide (n.val % 2 = 1)) }
/-- The LRU marker of the set of way `n` names the other way. -/
def lruNamesOther (n : Fin 64) (s : State) : State :=
  s.setCache { s.cache with lru := upd s.cache.lru (setOfWay n) (decide (n.val % 2 = 0)) }

/-- The way of its set that is in a condition with a key. -/
def State.findWay (s : State) (c : WayCondition) (k : Key) : Option (Fin 64) :=
  (waysOf (setOf k)).find? fun n => decide ((s.way n).condition = c) && decide ((s.way n).key = k)

/-! ### The entry of an exchange -/

/-- The key an exchange of line `l` looks up (R66). -/
def State.exchKey (s : State) (l : Line) : Key := { line := l, station := (s.exch l).station }

/-- The way that holds the entry pinned for the exchange of line `l`. -/
def State.heldWay (s : State) (l : Line) : Option (Fin 64) :=
  if (s.exch l).entryHeld then s.findWay .valid (s.exchKey l) else none

/-- The copy of the entry held for the exchange of line `l`. -/
def State.heldCopy (s : State) (l : Line) : Option StationRecord := (s.heldWay l).map fun n => (s.way n).copy

/-- R117: a change to the entry held; the entry becomes dirty where the copy changes. -/
def changeEntry (l : Line) (f : StationRecord → StationRecord) (s : State) : State :=
  match s.heldWay l with
  | some n => s.modWay n fun w => { w with copy := f w.copy, dirty := w.dirty || decide (f w.copy ≠ w.copy) }
  | none => s

/-- A change to the entry held that marks it dirty in any case (R79, R82, R83, R85). -/
def markEntry (l : Line) (f : StationRecord → StationRecord) (s : State) : State :=
  match s.heldWay l with
  | some n => s.modWay n fun w => { w with copy := f w.copy, dirty := true }
  | none => s

/-! ### Changes of a record -/

/-- R104, R107, R112: a QUARANTINED station whose bucket is at or below the release level returns to IN_SERVICE. -/
def StationRecord.freed (r : StationRecord) (releaseLevel : Nat) : StationRecord :=
  { r with state := if r.state = .quarantined ∧ r.bucket ≤ releaseLevel then .inService else r.state }

/-- R107: the drain. -/
def StationRecord.drain (r : StationRecord) (epoch : Word) (releaseLevel : Nat) : StationRecord :=
  ({ r with bucket := r.bucket - min r.bucket (epoch - r.drainMark).toNat, drainMark := epoch }).freed releaseLevel

/-- R105: the toggle is trusted. -/
def StationRecord.trusted (r : StationRecord) (powerEpoch : Word) : Bool :=
  r.toggleKnown && decide (r.toggleEpoch = powerEpoch)

/-- R72: a failed attempt raises the bucket, which stays at 15. -/
def StationRecord.fail (r : StationRecord) : StationRecord :=
  { r with bucket := if r.bucket < 15 then r.bucket + 1 else r.bucket }

/-- R72: the bucket has reached the quarantine limit. -/
def StationRecord.quarantine (r : StationRecord) : StationRecord := { r with state := .quarantined }

/-- R106: a new owner with the owner check that agrees. -/
def StationRecord.ownedBy (r : StationRecord) (owner : Option Agent) : StationRecord :=
  { r with owner := owner, ownerCheck := agreeingCheck owner }

/-- R80, R82, R83, R85: toggle known is cleared. -/
def StationRecord.forgetToggle (r : StationRecord) : StationRecord := { r with toggleKnown := false }

/-- R80: a valid reply makes the sent toggle the stored one, known in the present power epoch. -/
def StationRecord.learnToggle (r : StationRecord) (toggle : Bool) (powerEpoch : Word) : StationRecord :=
  { r with toggle := toggle, toggleKnown := true, toggleEpoch := powerEpoch }

/-- R77: success is OK or SENT. -/
def ExchangeOutcome.isSuccess : ExchangeOutcome → Bool
  | .ok => true
  | .sent => true
  | _ => false

/-- R79: the state after RESOLVING. -/
def stateAfter (before : StationState) (anyValid silent : Bool) (outcome : ExchangeOutcome) : StationState :=
  match before with
  | .quarantined => .quarantined
  | .absent => if anyValid then .inService else .absent
  | .new => if anyValid then .inService else if silent && decide (outcome = .noReply) then .absent else .new
  | .inService => if !anyValid && silent && decide (outcome = .noReply) then .absent else .inService

/-- R80: the toggle fields at RESOLVING. -/
def StationRecord.resolveToggle (r : StationRecord) (outcome : ExchangeOutcome) (e : Exchange) (powerEpoch : Word) :
    StationRecord :=
  let r := if e.anyValid then r.learnToggle e.sentToggle powerEpoch else r
  if outcome = .stale then r.forgetToggle else r

/-- R79: the station update of an exchange of `agent` with CLAIM as given. -/
def StationRecord.resolve (r : StationRecord) (outcome : ExchangeOutcome) (e : Exchange) (agent : Agent) (claim : Bool)
    (powerEpoch : Word) : StationRecord :=
  let r := { r with
    exchanges := satHalf r.exchanges,
    failures := if outcome.isSuccess then r.failures else satHalf r.failures,
    lastStatus := (match e.anyValid, e.lastValid with | true, some v => v.status | _, _ => r.lastStatus),
    state := stateAfter r.state e.anyValid e.everySilent outcome }
  let r := if outcome = .ok ∧ claim then r.ownedBy (some agent) else r
  r.resolveToggle outcome e powerEpoch

/-- R81: the alarm pending flag follows the ALARM bit. -/
def StationRecord.setAlarmPending (r : StationRecord) (b : Bool) : StationRecord := { r with alarmPending := b }

/-- R112: the copy of a load whose record is usable, and whether its owner test failed. -/
def loadedCopy (data : List Byte) (r : StationRecord) (releaseLevel : Nat) : StationRecord × Bool :=
  let agrees := ownerByteAgrees (byteAt data 0x03) r.ownerCheck
  let r := if agrees then r else r.ownedBy none
  (r.freed releaseLevel, !agrees)

end Sys2Proof.Machine
end

