-- ==== Sys2Proof/Machine/Resolve.lean ====
section
/-! DEFINITION. The Exchange Engine between lookup and result writes: what PREPARING fixes once the entry is pinned (R67,
R68), the result writes (R37, R38), the outcome (R77) and the entry into RESOLVING (R78 to R81). -/

namespace Sys2Proof.Machine

/-- The slot whose plan the Engine of line `l` works for. -/
def State.slotOf (s : State) (l : Line) : Slot := (s.walk l).holder

/-- The plan the Engine of line `l` works for. -/
def State.planOf (s : State) (l : Line) : Plan := s.plan (s.slotOf l)

/-! ### Result writes (R37, R38) -/

/-- R37: the outcome code of the member at a place of the group: the EXCHANGE, at place 0, always carries the outcome, a
CONTINUE that received no bytes UNUSED. -/
def memberCode (outcome : ExchangeOutcome) (place stored : Nat) : Byte :=
  if place = 0 ∨ 0 < stored then outcome.byte else unusedByte

/-- The result write of one member, tagged with the plan's agent. -/
def resultEntry (s : State) (l : Line) (outcome : ExchangeOutcome) (m : Member) (place : Nat) : WriteEntry :=
  let e := s.exch l
  { addr := m.addr + 0x18, data := resultPart (memberCode outcome place m.stored) e.attempts m.stored e.finalReply,
    agent := (s.planOf l).agent, writer := .engine l, op := .result l (s.slotOf l) true }

/-- R38: one result write is queued; it counts in the tally and in the plan's outstanding writes. -/
def queueResult (l : Line) (e : WriteEntry) (s : State) : State :=
  let s := handOver e s
  let s := s.modWalk l fun w => { w with tally := w.tally + 1 }
  s.modPlan (s.slotOf l) fun p => { p with outstanding := p.outstanding + 1 }

/-- The result writes of a group in reverse group order, the EXCHANGE's last (R38). -/
def resultEntries (s : State) (l : Line) (outcome : ExchangeOutcome) : List WriteEntry :=
  ((s.walk l).group.zipIdx.map fun p => resultEntry s l outcome p.1 p.2).reverse

/-- R38: the result writes of an exchange are queued. -/
def queueResults (l : Line) (outcome : ExchangeOutcome) (s : State) : State :=
  (resultEntries s l outcome).foldl (fun t e => queueResult l e t) s

/-! ### RESOLVING (R78) -/

/-- R79, R80: the station update of the entry held. -/
def stationUpdate (l : Line) (outcome : ExchangeOutcome) (s : State) : State :=
  let e := s.exch l
  markEntry l (·.resolve outcome e (s.planOf l).agent (s.walk l).copy.claim (s.driver l).powerEpoch) s

/-- R81: the alarm hand-off, to the owner as the station update leaves it, or to agent 0. -/
def alarmHandOff (l : Line) (s : State) : State :=
  let e := s.exch l
  match e.anyValid, e.lastValid, s.heldCopy l with
  | true, some reply, some r =>
      if alarmBit reply.status then
        if r.alarmPending then s
        else
          handOffAlarm (r.owner.getD 0) { line := l, station := e.station, status := reply.status }
            (changeEntry l (·.setAlarmPending true) s)
      else changeEntry l (·.setAlarmPending false) s
  | _, _, _ => s

/-- R78: the entry into RESOLVING with its outcome, one step. A broadcast and a RECORD_INVALID hold no entry, so the station
update and the hand-off do nothing for them. -/
def enterResolving (l : Line) (outcome : ExchangeOutcome) (s : State) : State :=
  let s := s.modExch l fun e => { e with phase := .resolving, outcome := some outcome }
  queueResults l outcome (alarmHandOff l (stationUpdate l outcome s))

/-! ### The outcome (R77) -/

/-- The group's total capacity (R33). -/
def Walk.capacity (w : Walk) : Nat := (w.group.map (·.capacity)).sum

/-- R77 rows 5 to 8. -/
def lengthOutcome (length capacity : Nat) (shortOk : Bool) : ExchangeOutcome :=
  if length = capacity then .ok
  else if length < capacity then (if shortOk then .ok else .short)
  else .long

/-- R77 rows 4 to 9: the outcome of an exchange whose last attempt ended with a result. -/
def outcomeOf (w : Walk) (result : AttemptResult) (reply : Option ValidReply) : ExchangeOutcome :=
  match result with
  | .refused => .refused
  | .valid => lengthOutcome (match reply with | some r => r.length | none => 0) w.capacity w.copy.shortOk
  | .busy => .busy
  | .noReply => .noReply
  | .corrupt => .corrupt
  | .stale => .stale
  | .truncated => .truncated
  | .overrun => .overrun

/-! ### PREPARING (R67, R68) -/

/-- R68: the request payload is asked for, or the transmit buffer is empty at once. -/
def fetchPayload (l : Line) (s : State) : State :=
  let d := (s.walk l).copy
  if d.requestLength = 0 then s.modExch l fun e => { e with phase := .budgetWait, txBuffer := [] }
  else
    askRead { addr := d.requestAddr, length := d.requestLength, agent := (s.planOf l).agent, requester := .engine l,
              op := .payload l, live := true } s

/-- R67: allowance, toggle and wake lead are fixed from the entry. -/
def Exchange.fixFrom (e : Exchange) (r : StationRecord) (retryLimit : Nat) (powerEpoch : Word) : Exchange :=
  let trusted := r.trusted powerEpoch
  { e with allowance := if r.state = .absent then 1 else 1 + retryLimit, sentToggle := trusted && !r.toggle,
           fresh := !trusted, wakeLead := r.wakeLead.toNat }

/-- R67: the entry has been pinned: the drain, the quarantine refusal, the values fixed for the exchange, the payload. -/
def afterPinned (l : Line) (s : State) : State :=
  let d := s.driver l
  let s := changeEntry l (·.drain d.drainEpoch d.setup.releaseLevel) s
  match s.heldCopy l with
  | none => s
  | some r =>
      if r.state = .quarantined then enterResolving l .quarantined s
      else fetchPayload l (s.modExch l fun e => e.fixFrom r d.setup.retryLimit d.powerEpoch)

/-- The way `n` becomes the entry pinned for the exchange of line `l`, and PREPARING goes on (R66). -/
def pinFor (l : Line) (n : Fin 64) (s : State) : State :=
  let s := s.modWay n fun w => { w with pinned := true }
  afterPinned l (s.modExch l fun e => { e with phase := .preparing, lookup := .none, entryHeld := true })

/-- R66: the record was unusable: no entry is held, and the outcome is RECORD_INVALID. -/
def recordInvalid (l : Line) (s : State) : State :=
  enterResolving l .recordInvalid (s.modExch l fun e => { e with lookup := .none, entryHeld := false })

end Sys2Proof.Machine
end

