-- ==== Sys2Proof/Machine/ContextCache.lean ====
section
/-! DEFINITION. The Station Context Cache (Section 6): lookups, loads, evictions, stalls, write-backs, flushes, and the part of
LINE_DISABLE that it carries out (R121, R137). -/

namespace Sys2Proof.Machine

/-! ### Loads and write-backs (R111, R114, R118) -/

/-- A way takes a key and its load begins, tagged with `agent` (R110 row 4, R111, R114). -/
def startLoad (n : Fin 64) (k : Key) (agent : Agent) (s : State) : State :=
  let s := s.setWay n { condition := .loading, key := k, copy := StationRecord.reset, dirty := false, pinned := true,
                        reserved := none, loadAgent := agent }
  askRead { addr := stationAddr (s.driver k.line).setup.tableBase k.station, length := 32, agent := agent,
            requester := .cache, op := .station k, live := true } s

/-- R118: the write-back of a way, tagged with the owner in the copy, or with agent 0. -/
def writeBackEntry (s : State) (n : Fin 64) : WriteEntry :=
  let w := s.way n
  { addr := stationAddr (s.driver w.key.line).setup.tableBase w.key.station, data := w.copy.bytes,
    agent := w.copy.owner.getD 0, writer := .cache, op := .writeBack w.key }

/-- A way that holds nothing. -/
def Way.freed (w : Way) : Way :=
  { w with condition := .free, copy := StationRecord.reset, dirty := false, pinned := false, reserved := none }

/-- R113: a way becomes FREE and the LRU marker names it. -/
def freeWay (n : Fin 64) (s : State) : State := lruNames n (s.modWay n Way.freed)

/-- R118: a write-back handed over joins the tail of the write-back list. -/
def listWriteBack (k : Key) (s : State) : State :=
  s.setCache { s.cache with writeBacks := s.cache.writeBacks ++ [k] }

/-- R114: a VALID unpinned way is taken for a new key. -/
def evict (n : Fin 64) (k : Key) (agent : Agent) (s : State) : State :=
  let s := lruNamesOther n s
  let w := s.way n
  if !w.dirty then startLoad n k agent s
  else if s.port.takesAtOnce then startLoad n k agent (listWriteBack w.key (handOver (writeBackEntry s n) s))
  else
    (handOver (writeBackEntry s n) s).modWay n fun w =>
      { w with condition := .writing, pinned := true, reserved := some k, loadAgent := agent }

/-! ### Lookup (R110) -/

/-- What a lookup finds (R110), by the rows of its table. -/
inductive LookupRow where
  | hit (n : Fin 64)
  | joins
  | waits
  | free (n : Fin 64)
  | takes (n : Fin 64)
  | stalls
  deriving DecidableEq, Repr

/-- R113: the VALID unpinned way to be taken. -/
def State.victim (s : State) (i : SetIndex) : Option (Fin 64) :=
  let candidates := (waysOf i).filter fun n => decide ((s.way n).condition = .valid) && !(s.way n).pinned
  match candidates with
  | [_, _] => some (if s.cache.lru.get i then way1 i else way0 i)
  | n :: _ => some n
  | [] => none

/-- R110: the first row that applies to a key. Row 2 takes in a WRITING way that is reserved for the key (log 6). -/
def State.lookupRow (s : State) (k : Key) : LookupRow :=
  let i := setOf k
  let ways := waysOf i
  match s.findWay .valid k with
  | some n => .hit n
  | none =>
    if (s.findWay .loading k).isSome
        || ways.any (fun n => decide ((s.way n).condition = .writing) && decide ((s.way n).reserved = some k)) then .joins
    else if (s.findWay .writing k).isSome then .waits
    else
      match ways.find? (fun n => decide ((s.way n).condition = .free)) with
      | some n => .free n
      | none =>
        match s.victim i with
        | some n => .takes n
        | none =>
          if ways.any (fun n => decide ((s.way n).condition = .writing) && !(s.way n).pinned) then .waits else .stalls

/-- The lookup of an exchange waits for a load (R66). -/
def waitForLoad (l : Line) (s : State) : State := s.modExch l fun e => { e with phase := .preparing, lookup := .load }

/-- R110 rows 3 and 6: the lookup waits behind those that began to wait before it. -/
def waitForHandOver (l : Line) (s : State) : State :=
  let i := setOf (s.exchKey l)
  let s := s.setCache { s.cache with handWaits := upd s.cache.handWaits i (s.cache.handWaits.get i ++ [l]) }
  s.modExch l fun e => { e with phase := .preparing, lookup := .handover }

/-- R110 row 7: the lookup joins the tail of the stall list. -/
def stall (l : Line) (s : State) : State :=
  let i := setOf (s.exchKey l)
  let s := s.setCache { s.cache with stalls := upd s.cache.stalls i (s.cache.stalls.get i ++ [l]) }
  s.modExch l fun e => { e with phase := .stalled, lookup := .stalled }

/-- R110: the lookup of the exchange of line `l`. -/
def lookup (l : Line) (s : State) : State :=
  let k := s.exchKey l
  match s.lookupRow k with
  | .hit n => pinFor l n (lruNamesOther n s)
  | .joins => waitForLoad l s
  | .waits => waitForHandOver l s
  | .free n => waitForLoad l (startLoad n k (s.planOf l).agent (lruNamesOther n s))
  | .takes n => waitForLoad l (evict n k (s.planOf l).agent s)
  | .stalls => stall l s

/-! ### Stalls and waiting lookups (R116) -/

/-- R116: a pin of the set has been released: the first stalled lookup is made again. -/
def serveStall (i : SetIndex) (s : State) : State :=
  match s.cache.stalls.get i with
  | [] => s
  | l :: rest => lookup l (s.setCache { s.cache with stalls := upd s.cache.stalls i rest })

/-- R116: a way of the set has become FREE: the first stalled lookup is made again, and then the lookups of rows 3 and 6. -/
def serveFree (i : SetIndex) (s : State) : State :=
  let s := serveStall i s
  let waits := s.cache.handWaits.get i
  let s := s.setCache { s.cache with handWaits := upd s.cache.handWaits i [] }
  waits.foldl (fun t l => lookup l t) s

/-- R110 row 3: the write-back of `victim` has entered the queue while its way goes on to a load: the lookups that wait for
that key are made again. One that must then wait in row 6 begins to wait anew: it goes behind the lookups that began to wait after
it, where R116 does not say whether it keeps its place (the model's choice, log 34). -/
def remakeFor (victim : Key) (s : State) : State :=
  let i := setOf victim
  let waits := s.cache.handWaits.get i
  let isFor (l : Line) : Bool := decide (s.exchKey l = victim)
  let s := s.setCache { s.cache with handWaits := upd s.cache.handWaits i (waits.filter fun l => !isFor l) }
  (waits.filter isFor).foldl (fun t l => lookup l t) s

/-! ### Hand-overs (R114, R118, R163) -/

/-- R118: a write-back that waited has entered the posting queue. -/
def wayHandedOver (k : Key) (s : State) : State :=
  match s.findWay .writing k with
  | none => listWriteBack k s
  | some n =>
      let w := s.way n
      let s := listWriteBack k s
      match w.reserved with
      | some k' => remakeFor k (startLoad n k' w.loadAgent s)
      | none => serveFree (setOfWay n) (freeWay n s)

/-- R163: waiting writes join while the queue has room; a write-back that joins changes its way. -/
def pumpWrites : Nat → State → State
  | 0, s => s
  | fuel + 1, s =>
      match s.port.joinWaiting with
      | none => s
      | some (e, p) =>
          let s := s.setPort p
          pumpWrites fuel
            (match e.op with
              | .writeBack k => wayHandedOver k s
              | _ => s)

/-- R163: the writes that wait join, in their order, as far as the queue has room. -/
def pumpWaiting (s : State) : State := pumpWrites queueCapacity s

/-! ### Pins (R115) and lookups withdrawn (R82, R85) -/

/-- R115: the pin of the exchange's entry is cleared, and the stall list of its set is served. -/
def releasePin (l : Line) (s : State) : State :=
  let s' := s.modExch l fun e => { e with entryHeld := false }
  match s.heldWay l with
  | some n => serveStall (setOfWay n) (s'.modWay n fun w => { w with pinned := false })
  | none => s'

/-- R82: a lookup that waits is withdrawn; a load goes on without it. -/
def withdrawLookup (l : Line) (s : State) : State :=
  let i := setOf (s.exchKey l)
  let s := s.setCache { s.cache with
    stalls := upd s.cache.stalls i ((s.cache.stalls.get i).filter fun x => decide (x ≠ l)),
    handWaits := upd s.cache.handWaits i ((s.cache.handWaits.get i).filter fun x => decide (x ≠ l)) }
  s.modExch l fun e => { e with lookup := .none }

/-! ### Flushing (R119, R120) -/

/-- A VALID unpinned way is given up: a clean one becomes FREE, a dirty one is written back. -/
def giveUpWay (n : Fin 64) (s : State) : State :=
  let w := s.way n
  if !w.dirty then freeWay n s
  else if s.port.takesAtOnce then freeWay n (listWriteBack w.key (handOver (writeBackEntry s n) s))
  else (handOver (writeBackEntry s n) s).modWay n fun w => { w with condition := .writing }

/-- All the ways, in order of set and way (R120). -/
def allWays : List (Fin 64) := List.finRange 64

/-- A way that FLUSH, FLUSH_LINE and LINE_DISABLE give up. -/
def Way.canFlush (w : Way) : Bool := decide (w.condition = .valid) && !w.pinned

/-- The ways of a line that FLUSH_LINE acts on, as they stand. -/
def State.flushable (s : State) (l : Line) : List (Fin 64) :=
  allWays.filter fun n => decide ((s.way n).key.line = l) && (s.way n).canFlush

/-- The ways of a line that are VALID and pinned, or LOADING (R120). -/
def State.usedWays (s : State) (l : Line) : Nat :=
  (allWays.filter fun n => decide ((s.way n).key.line = l) &&
    (decide ((s.way n).condition = .loading) || (decide ((s.way n).condition = .valid) && (s.way n).pinned))).length

/-- Write-backs of a line's stations not yet answered: those on the list and those of WRITING ways (R120, R121). -/
def State.lineWriteBacks (s : State) (l : Line) : Nat :=
  (s.cache.writeBacks.filter fun k => decide (k.line = l)).length
    + (allWays.filter fun n => decide ((s.way n).key.line = l) && decide ((s.way n).condition = .writing)).length

/-- Serves the sets of those ways that stand FREE (R116). R120 gives no order among the sets; they are served in the order of
their ways (the model's choice, log 29). -/
def serveFreed (ways : List (Fin 64)) (s : State) : State :=
  ways.foldl (fun t n => if (t.way n).condition = .free then serveFree (setOfWay n) t else t) s

/-- FLUSH_LINE (R120): the ways of the line are given up as they stand; the verdict follows the last write-back. -/
def flushLineFor (k : Agent) (l : Line) (s : State) : State :=
  let targets := s.flushable l
  let counted := s.usedWays l
  let s := targets.foldl (fun t n => giveUpWay n t) s
  let left := s.lineWriteBacks l
  let s :=
    if left = 0 then postVerdict k .done (BitVec.ofNat 16 counted) s
    else postPending k (s.modBank k fun b => { b with flushWait := .line l left counted })
  serveFreed targets s

/-- The write-backs of one key that are on the list. -/
def State.keyWriteBacks (s : State) (key : Key) : Nat := (s.cache.writeBacks.filter fun k => decide (k = key)).length

/-- FLUSH (R119), its station address in range. -/
def flushStation (k : Agent) (key : Key) (s : State) : State :=
  match s.findWay .valid key with
  | some n =>
      let w := s.way n
      if w.pinned then postVerdict k .busy 0 s
      else if !w.dirty then serveFree (setOfWay n) (postVerdict k .done 1 (freeWay n s))
      else
        let left := s.keyWriteBacks key + 1
        let s := giveUpWay n (postPending k (s.modBank k fun b => { b with flushWait := .station key true left }))
        serveFreed [n] s
  | none =>
      if (s.findWay .loading key).isSome then postVerdict k .busy 0 s
      else
        let left := s.keyWriteBacks key + (if (s.findWay .writing key).isSome then 1 else 0)
        if left = 0 then postVerdict k .done 0 s
        else postPending k (s.modBank k fun b => { b with flushWait := .station key false left })

/-- R119, R120: one write-back of `key` has been answered: a flush that waits for it counts it, and ends with the last. -/
def Bank.flushAnswered (b : Bank) (key : Key) (accepted : Bool) : Bank :=
  match b.flushWait with
  | .none => b
  | .station k own left =>
      if k = key then
        if left ≤ 1 then b.post .done (if own then (if accepted then 2 else 3) else 0)
        else { b with flushWait := .station k own (left - 1) }
      else b
  | .line l left counted =>
      if l = key.line then
        if left ≤ 1 then b.post .done (BitVec.ofNat 16 counted)
        else { b with flushWait := .line l (left - 1) counted }
      else b

/-! ### The cache's part of LINE_DISABLE (R121, R137) -/

/-- R121 step 1: a load for the line is in progress, or will begin when a WRITING way is handed over. -/
def State.loadsOf (s : State) (l : Line) : Bool :=
  allWays.any fun n =>
    (decide ((s.way n).condition = .loading) && decide ((s.way n).key.line = l)) ||
      (decide ((s.way n).condition = .writing) &&
        (match (s.way n).reserved with
          | some k => decide (k.line = l)
          | none => false))

/-- R137, R168: the write of both epochs, line setup record 30h to 37h. -/
def epochsEntry (s : State) (l : Line) : WriteEntry :=
  { addr := lineRecordAddr s.unit.workBase l + 0x30,
    data := wordBytes (s.driver l).drainEpoch ++ wordBytes (s.driver l).powerEpoch, agent := 0, writer := .driver l,
    op := .epochs l }

/-- R121, R137: what a LINE_DISABLE in WRITING_BACK does as soon as it can: it gives up every way of the line once no load
is left, and queues the epoch write once every write-back has been answered. -/
def advanceDisable (l : Line) (s : State) : State :=
  if (s.driver l).disable ≠ .writingBack ∨ s.loadsOf l then s
  else
    let targets := s.flushable l
    let s := serveFreed targets (targets.foldl (fun t n => giveUpWay n t) s)
    if s.lineWriteBacks l = 0 then
      handOver (epochsEntry s l) (s.modDriver l fun d => { d with disable := .writingEpochs })
    else s

/-! ### Answers -/

/-- R118: a write-back is answered. -/
def writeBackAnswered (key : Key) (agent : Agent) (accepted : Bool) (s : State) : State :=
  let s := s.setCache { s.cache with writeBacks := s.cache.writeBacks.erase key }
  let s := if accepted then s else recordFault .writebackLost key.line key.station agent s
  let s := allFour.foldl (fun t k => t.modBank k (·.flushAnswered key accepted)) s
  advanceDisable key.line s

/-- The exchange of the key's line waits for the load of this key. -/
def State.awaitsLoad (s : State) (key : Key) : Bool :=
  decide ((s.exch key.line).lookup = .load) && decide ((s.exch key.line).station = key.station)

/-- R111: the load ended unusable. -/
def loadUnusable (n : Fin 64) (key : Key) (s : State) : State :=
  let waiting := s.awaitsLoad key
  let s := freeWay n s
  let s := if waiting then recordInvalid key.line s else s
  serveFree (setOfWay n) s

/-- R112: the load ended usable with the record `r` of the bytes `data`. -/
def loadUsable (n : Fin 64) (key : Key) (agent : Agent) (data : List Byte) (r : StationRecord) (s : State) : State :=
  let loaded := loadedCopy data r (s.driver key.line).setup.releaseLevel
  let s := s.modWay n fun w =>
    { w with condition := .valid, copy := loaded.1,
             dirty := loaded.2 || decide (loaded.1.state ≠ r.state) }
  let s := if loaded.2 then recordFault .contextCheck key.line key.station agent s else s
  if s.awaitsLoad key then pinFor key.line n s
  else serveStall (setOfWay n) (s.modWay n fun w => { w with pinned := false })

/-- R111, R112: the load of a key is answered; a LINE_DISABLE that waits for it goes on (R121). -/
def stationLoadAnswered (key : Key) (agent : Agent) (a : ReadAnswer) (s : State) : State :=
  match s.findWay .loading key with
  | none => s
  | some n =>
      let s :=
        match a with
        | .reject => loadUnusable n key s
        | .accept data =>
            match usableRecord data key.station with
            | none => loadUnusable n key s
            | some r => loadUsable n key agent data r s
      advanceDisable key.line s

end Sys2Proof.Machine
end

