-- ==== Sys2Proof/Machine/Schedule.lean ====
section
/-! DEFINITION. The Line Scheduler (Section 3) and the part of the walk it drives: joining and choosing, activation, the fetch
of a descriptor (R27, R28), the walk's loss of the line (R31, R44), boundary decisions, and the ending step of
LINE_DISABLE (R136). -/

namespace Sys2Proof.Machine

/-! ### The run queue (R47 to R50) -/

/-- R51: the line is in service. -/
def LineState.inService : LineState → Bool
  | .disabled => false
  | .powering => false
  | .cut => false
  | _ => true

def State.inService (s : State) (l : Line) : Bool := (s.lineCtl l).state.inService

/-- R48: entry `a` stands before entry `b`: higher effective class, SET_ASIDE first, lower join stamp. -/
def State.standsBefore (s : State) (a b : QueueEntry) : Bool :=
  let p := s.plan a.slot
  let q := s.plan b.slot
  if p.effClass ≠ q.effClass then decide (q.effClass < p.effClass)
  else if (p.state = .setAside) ≠ (q.state = .setAside) then decide (p.state = .setAside)
  else decide (a.stamp < b.stamp)

/-- An entry put in the place its keys give it. -/
def State.placeEntry (s : State) (e : QueueEntry) : List QueueEntry → List QueueEntry
  | [] => [e]
  | x :: rest => if s.standsBefore e x then e :: x :: rest else x :: s.placeEntry e rest

/-- The highest join stamp (R49). -/
def lastStamp : Nat := 4294967295

/-- R49: the entries get the stamps 0, 1, 2 and so on in ascending order of their stamps. -/
def renumber (q : List QueueEntry) : List QueueEntry :=
  q.map fun e => { e with stamp := (q.filter fun x => decide (x.stamp < e.stamp)).length }

/-- R49: the join stamp counter after a join; at its highest value the queue is renumbered. -/
def Scheduler.advanceStamp (x : Scheduler) : Scheduler :=
  if lastStamp ≤ x.stampCounter then { x with queue := renumber x.queue, stampCounter := x.queue.length }
  else { x with stampCounter := x.stampCounter + 1 }

/-- R58: an aging timer as it is started for an effective class. -/
def agingTimer (period effClass : Nat) : Timer := if period = 0 ∨ 7 ≤ effClass then .stopped else .running period

/-- R47: the plan of slot `i`, already QUEUED or SET_ASIDE, joins the run queue of its line. -/
def joinQueue (i : Slot) (s : State) : State :=
  let p := s.plan i
  let x := s.sched p.line
  let e : QueueEntry := { slot := i, stamp := x.stampCounter, aging := agingTimer x.agingPeriod p.effClass }
  s.setSched p.line ({ x with queue := s.placeEntry e x.queue } : Scheduler).advanceStamp

/-- The run queue without the entry of slot `i` (R47). -/
def leaveQueue (l : Line) (i : Slot) (s : State) : State :=
  s.modSched l fun x => { x with queue := x.queue.filter fun e => decide (e.slot ≠ i) }

/-- R50: an entry is eligible. Only QUEUED and SET_ASIDE plans have entries (R47). -/
def State.eligible (s : State) (l : Line) (e : QueueEntry) : Bool :=
  let p := s.plan e.slot
  decide ((s.sched l).floor ≤ p.baseClass)
    && (decide (p.state = .setAside) || (decide (p.state = .queued) && !s.backlog.hold))

/-- R50: the first eligible entry, in queue order. -/
def State.firstEligible (s : State) (l : Line) : Option QueueEntry := (s.sched l).queue.find? (s.eligible l)

/-! ### The walk takes up and gives up the line (R27, R31, R44) -/

/-- R44: the walk is given up, or is over: no holder, no group, no pause; answers still to come reach neither the walk nor its
exchange. -/
def leaveWalk (l : Line) (s : State) : State :=
  (s.setPort (s.port.detach l)).modWalk l fun w => { w with state := .noHolder, group := [], pause := .stopped }

/-- The line has no holder any more (R46). -/
def clearHolder (l : Line) (s : State) : State := s.modSched l fun x => { x with holder := none }

/-- R11, R31: the holder's plan ends, and the line is without a holder. -/
def endHolder (l : Line) (code : EndCode) (detail : FaultDetail) (s : State) : State :=
  clearHolder l (leaveWalk l (endPlan (s.slotOf l) code detail s))

/-- R12, R31: the walk stops with a fault; only an ACTIVE plan is changed by it. -/
def stopWalk (l : Line) (detail : FaultDetail) (s : State) : State := endHolder l .faulted detail s

/-- R7: a run starts. -/
def Plan.startRun (p : Plan) : Plan :=
  let p := { p with currentAddr := p.firstAddr, completed := 0, savedAfterJump := false }
  if p.interval = 0 then p else { p with intervalTimer := .running p.interval.toNat, intervalExpired := false }

/-- R27: the walk starts at the first descriptor. -/
def Walk.start (w : Walk) (i : Slot) (first : Word) : Walk :=
  { w with state := .fetching, holder := i, nextAddr := first, steps := 0, afterJump := false, group := [] }

/-- R27: the walk resumes at the plan's saved position. -/
def Walk.resume (w : Walk) (i : Slot) (p : Plan) : Walk :=
  { w with state := .fetching, holder := i, nextAddr := p.currentAddr, steps := p.completed, afterJump := p.savedAfterJump,
           group := [] }

/-- R53, R56: the plan of slot `i` leaves the queue of line `l` and becomes its holder; its run starts or resumes. -/
def activate (l : Line) (i : Slot) (s : State) : State :=
  let p := s.plan i
  let s := (leaveQueue l i s).modSched l fun x => { x with holder := some i }
  if p.state = .setAside then
    (s.setPlan i { p with state := .active, effClass := p.baseClass }).modWalk l (·.resume i p)
  else
    (s.setPlan i ({ p with state := .active, effClass := p.baseClass } : Plan).startRun).modWalk l (·.start i p.firstAddr)

/-! ### Fetching (R28) -/

/-- R28: the first check of a fetch that fails. -/
def State.fetchFault (s : State) (l : Line) : Option FaultDetail :=
  let w := s.walk l
  if 255 ≤ w.steps then some .stepLimit
  else if w.nextAddr.toNat % 32 ≠ 0 then some .window
  else if !(s.port.window (s.planOf l).agent).contains w.nextAddr 32 then some .window
  else none

/-- R28: the descriptor at the next address is asked for. -/
def issueFetch (l : Line) (s : State) : State :=
  askRead { addr := (s.walk l).nextAddr, length := 32, agent := (s.planOf l).agent, requester := .engine l,
            op := .descriptor l, live := true }
    (s.modWalk l fun w => { w with state := .fetching, steps := w.steps + 1 })

/-- R28, R31: the fetch, or the stop of the walk. Either way the plan's current descriptor address is the address fetched, or
that would have been. -/
def fetch (l : Line) (s : State) : State :=
  let s' := s.modPlan (s.slotOf l) fun p => { p with currentAddr := (s.walk l).nextAddr }
  match s.fetchFault l with
  | none => issueFetch l s'
  | some d => stopWalk l d s'

/-! ### Selection (R52, R53) -/

/-- R52, R53: one selection; where the plan chosen faults at its first fetch, the line is again without a holder and the next
selection follows (R11, R52). -/
def selectFrom : Nat → Line → State → State
  | 0, _, s => s
  | fuel + 1, l, s =>
      if (s.sched l).holder.isNone && s.inService l then
        match s.firstEligible l with
        | none => s
        | some e => selectFrom fuel l (fetch l (activate l e.slot s))
      else s

/-- R52: a selection on a line. A queue holds at most 32 entries (R47), and each choice takes one away. -/
def select (l : Line) (s : State) : State := selectFrom 33 l s

/-- A selection on this line would choose a plan. -/
def State.wouldChoose (s : State) (l : Line) : Bool :=
  (s.sched l).holder.isNone && s.inService l && (s.firstEligible l).isSome

/-- R21, R62: the backlog hold has been cleared: each line makes a selection, in any order (log 4). -/
def selectAll (s : State) : State := s.inFreeOrder (allFour.filter fun l => s.wouldChoose l) select

/-! ### Run end (R8, R9, R54) -/

/-- R8, R9: the run count and the last run result at a run end. -/
def Plan.countRun (p : Plan) : Plan := { p with runCount := p.runCount + 1, lastRun := .complete }

/-- R9: what a cyclic plan becomes at a run end. -/
def Plan.afterRun (p : Plan) : Plan :=
  if p.intervalExpired then { p with state := .queued, overruns := satHalf p.overruns, intervalExpired := false }
  else { p with state := .waiting }

/-- R8, R9, R54: the run of the holder ends and the line is given up. The selection that follows is the caller's. -/
def runEnd (l : Line) (s : State) : State :=
  let i := s.slotOf l
  if (s.plan i).state ≠ .active then s
  else
    let s := s.modPlan i Plan.countRun
    if (s.plan i).interval = 0 then endHolder l .done .none s
    else
      let s := if (s.plan i).noteRuns then takeNote i s else s
      let expired := (s.plan i).intervalExpired
      let s := clearHolder l (leaveWalk l (s.modPlan i Plan.afterRun))
      pumpProgress i (if expired then joinQueue i s else s)

/-! ### Boundaries (R42, R55, R56) -/

/-- R42: the walk passes a boundary and reports it with its hold. -/
def passBoundary (l : Line) (hold : Bool) (s : State) : State :=
  s.modWalk l fun w => { w with state := .atBoundary, boundaryHold := hold, group := [] }

/-- R56: the holder is set aside for the entry of slot `j`. -/
def yieldTo (l : Line) (i j : Slot) (s : State) : State :=
  let s := s.modPlan i fun p => { p with state := .setAside, savedAfterJump := (s.walk l).afterJump }
  fetch l (activate l j (joinQueue i (leaveWalk l s)))

/-- R55: the entry to which the holder of line `l` yields at the boundary it reports. -/
def State.yieldsTo (s : State) (l : Line) (i : Slot) : Option QueueEntry :=
  if (s.walk l).boundaryHold then none
  else
    match s.firstEligible l with
    | none => none
    | some e => if (s.plan i).effClass < (s.plan e.slot).effClass then some e else none

/-- R42, R55: the boundary report of line `l` is taken. A report of a plan that no longer holds the line is discarded (R57). -/
def decideBoundary (l : Line) (s : State) : State :=
  match (s.walk l).state, (s.sched l).holder with
  | .atBoundary, some i =>
      if (s.plan i).state ≠ .active then s
      else
        select l
          (match s.yieldsTo l i with
            | some e => yieldTo l i e.slot s
            | none => fetch l s)
  | _, _ => s

/-! ### Aging (R58) -/

/-- The aging timer of a slot's entry runs. -/
def State.agingRuns (s : State) (l : Line) (i : Slot) : Bool :=
  (s.sched l).queue.any fun e => decide (e.slot = i) && e.aging.isRunning

/-- R58: an aging step of the plan of slot `i`: its class rises and its entry takes its new place. -/
def ageEntry (i : Slot) (s : State) : State :=
  let l := (s.plan i).line
  let s := s.modPlan i fun p => { p with effClass := p.effClass + 1 }
  let period := (s.sched l).agingPeriod
  match (s.sched l).queue.find? fun e => decide (e.slot = i) with
  | none => s
  | some e =>
      let e := { e with aging := agingTimer period (s.plan i).effClass }
      let s := leaveQueue l i s
      s.modSched l fun x => { x with queue := s.placeEntry e x.queue }

/-! ### The ending step of LINE_DISABLE (R13, R136) -/

/-- R13: the plans of a line that LINE_DISABLE ends. -/
def Plan.isOnLine (p : Plan) (l : Line) : Bool :=
  decide (p.line = l) &&
    match p.state with
    | .active => true
    | .halting => true
    | .queued => true
    | .setAside => true
    | .waiting => true
    | _ => false

/-- R13: how LINE_DISABLE ends a plan. -/
def disablePlan (i : Slot) (s : State) : State :=
  if (s.plan i).state = .halting then endPlan i .halted .none s else endPlan i .faulted .lineDisabled s

/-- The timers of a Driver Monitor that stop when its line is disabled (R136). -/
def Driver.stopTimers (d : Driver) : Driver :=
  { d with settleTimer := .stopped, windowTimer := .stopped, drainTimer := .stopped }

/-- R136: the ending step. Its plans end in any order (log 4). The guard timer of a line that leaves SETTLING stops (log 12). -/
def endingStep (l : Line) (s : State) : State :=
  let s := s.inFreeOrder (allSlots.filter fun i => (s.plan i).isOnLine l) disablePlan
  let s := leaveWalk l s
  let s := s.modSched l fun x => { x with holder := none, queue := [] }
  let s := s.modDriver l fun d => { d.stopTimers with disable := .writingBack }
  advanceDisable l (s.modLine l fun c => { c with state := .disabled, guard := .stopped })

/-- What follows when the line has no exchange in flight any more: the ending step of a LINE_DISABLE that waits (R136), or
else a selection, which finds a holder or chooses one (R52). -/
def afterExchange (l : Line) (s : State) : State :=
  if (s.driver l).disable = .waitingExchange then endingStep l s else select l s

end Sys2Proof.Machine
end

