-- ==== Sys2Proof/Machine/Chain.lean ====
section
/-! DEFINITION. The descriptor walk (Section 2): checks of a fetched descriptor, groups, JUMP and PAUSE, the decision after an
exchange, and the giving up of an exchange (Section 4.8) as the walk sees it. -/

namespace Sys2Proof.Machine

/-! ### Checks (R29, R30) -/

/-- R29: a descriptor that breaks a rule of validity; `member` says that it was fetched as a group member. -/
def Descriptor.isInvalid (d : Descriptor) (member afterJump : Bool) : Bool :=
  match d.kind with
  | none => true
  | some .exchange =>
      member || (d.join && !d.chain) || decide (250 < d.station.toNat) || (decide (d.station = 0) && d.join)
        || decide (240 < d.requestLength) || decide (240 < d.capacity)
  | some .continueReply => !member || (d.join && !d.chain) || decide (240 < d.capacity)
  | some .jump => member || afterJump
  | some .pause => member || decide (d.duration = 0) || decide (60000 < d.duration)

/-- R30: a range the descriptor names lies outside the window. -/
def Descriptor.isOutside (d : Descriptor) (w : Window) : Bool :=
  match d.kind with
  | some .exchange =>
      !w.contains d.requestAddr d.requestLength || (decide (d.station ≠ 0) && !w.contains d.replyAddr d.capacity)
  | some .continueReply => !w.contains d.replyAddr d.capacity
  | _ => false

/-- R29, R30: the fault of a fetched descriptor. -/
def State.descriptorFault (s : State) (l : Line) (d : Descriptor) : Option FaultDetail :=
  let w := s.walk l
  if d.isInvalid (!w.group.isEmpty) w.afterJump then some .descriptorInvalid
  else if d.isOutside (s.port.window (s.planOf l).agent) then some .window
  else none

/-! ### The beginning of an exchange (R32, R66, R67) -/

/-- The record of an exchange that begins. R64 gives its fields for a reset only; the model's choice is that each exchange begins
with the reset values (log 33). A broadcast has its values fixed at once (R67). -/
def Exchange.begin (station : Byte) : Exchange :=
  if station = 0 then { Exchange.reset with phase := .preparing, station := 0, allowance := 1, fresh := true }
  else { Exchange.reset with phase := .preparing, station := station }

/-- R32, R39, R66: the group is complete, and its exchange begins in PREPARING. -/
def beginExchange (l : Line) (s : State) : State :=
  let w := s.walk l
  let s := s.modPlan (s.slotOf l) fun p => { p with currentAddr := (w.group.map (·.addr)).headD p.currentAddr }
  let s := s.setWalk l { w with state := .exchanging, afterJump := false, tally := 0, writeReject := false }
  let s := s.setExch l (Exchange.begin w.copy.station)
  if w.copy.station = 0 then fetchPayload l s else lookup l s

/-! ### Acting on a descriptor (R32, R35, R36) -/

/-- R33: a member as the exchange takes it from a descriptor. -/
def memberOf (addr : Word) (d : Descriptor) : Member :=
  { addr := addr, replyAddr := d.replyAddr, capacity := d.capacity, chain := d.chain, stored := 0 }

/-- R32: with JOIN set the next member is fetched, and otherwise the group is complete. -/
def growGroup (l : Line) (d : Descriptor) (s : State) : State :=
  if d.join then fetch l (s.modWalk l fun w => { w with nextAddr := w.nextAddr + 32 }) else beginExchange l s

/-- R32: an EXCHANGE opens a group. -/
def actExchange (l : Line) (d : Descriptor) (s : State) : State :=
  growGroup l d (s.modWalk l fun w => { w with copy := d, group := [memberOf w.nextAddr d] })

/-- R32: a CONTINUE joins the group. -/
def actContinue (l : Line) (d : Descriptor) (s : State) : State :=
  growGroup l d (s.modWalk l fun w => { w with group := w.group ++ [memberOf w.nextAddr d] })

/-- R35: a JUMP is processed at once. -/
def actJump (l : Line) (d : Descriptor) (s : State) : State :=
  let s := s.modPlan (s.slotOf l) fun p => { p with currentAddr := d.target, completed := p.completed + 1 }
  passBoundary l d.hold (s.modWalk l fun w => { w with nextAddr := d.target, afterJump := true })

/-- R36: a PAUSE begins. -/
def actPause (l : Line) (d : Descriptor) (s : State) : State :=
  s.modWalk l fun w => { w with state := .pausing, copy := d, afterJump := false, pause := .running d.duration }

/-- R24: a valid descriptor is acted on as its kind asks. -/
def actOn (l : Line) (d : Descriptor) (s : State) : State :=
  match d.kind with
  | none => s
  | some .exchange => actExchange l d s
  | some .continueReply => actContinue l d s
  | some .jump => actJump l d s
  | some .pause => actPause l d s

/-- R28 to R32: a descriptor read of a walk that is FETCHING is answered. A selection follows where the walk stopped. -/
def descriptorAnswered (l : Line) (a : ReadAnswer) (s : State) : State :=
  if (s.walk l).state ≠ .fetching then s
  else
    match a with
    | .reject => select l (stopWalk l .memoryReject s)
    | .accept data =>
        let d := descriptorOf data
        match s.descriptorFault l d with
        | some f => select l (stopWalk l f s)
        | none => select l (actOn l d s)

/-! ### Going on after a descriptor (R36, R41) -/

/-- R41: with CHAIN set the walk passes a boundary on the way to the descriptor 32 bytes on; without it the run ends. `last` is
the address of the last descriptor processed. -/
def goOn (l : Line) (last : Word) (chain hold : Bool) (s : State) : State :=
  if chain then
    let s := s.modPlan (s.slotOf l) fun p => { p with currentAddr := last + 32 }
    pumpProgress (s.slotOf l) (passBoundary l hold (s.modWalk l fun w => { w with nextAddr := last + 32 }))
  else runEnd l (s.modPlan (s.slotOf l) fun p => { p with currentAddr := last })

/-- R36: the pause timer expires. -/
def pauseEnds (l : Line) (s : State) : State :=
  let w := s.walk l
  let i := s.slotOf l
  let s := s.modWalk l fun w => { w with pause := .stopped }
  let s := s.modPlan i fun p => { p with completed := p.completed + 1 }
  let s := if w.copy.note then takeNote i s else s
  select l (goOn l w.nextAddr w.copy.chain w.copy.hold s)

/-! ### The end of an exchange (R39 to R43, R78) -/

/-- R31, R41, R43: the members of the group count as completed, and the group's NOTE is acted on. R31, R40 and R41 say so of a
plan that goes on or faults, R43 of a group with NOTE; that the members of any other group count too, where the exchange is given
up with results, is cut in RESOLVING or is resolved under a HALTING plan, is the model's choice (log 7). -/
def finishGroup (l : Line) (s : State) : State :=
  let w := s.walk l
  let s := s.modPlan (s.slotOf l) fun p => { p with completed := p.completed + w.group.length }
  if w.copy.note then takeNote (s.slotOf l) s else s

/-- R64, R78: the phase becomes NONE, and abandon requested is cleared. Of the other fields R64 does not say what they hold then; the
model's choice is that retry pending and storing are cleared, that nothing is waited for any more, and that the rest keep their last
values until the next exchange begins (log 33). -/
def Exchange.over (e : Exchange) : Exchange :=
  { e with phase := .none, lookup := .none, retryPending := false, backoff := .stopped, abandon := false, storing := false }

/-- R39, R40: the walk decides for the plan. -/
def decideAfter (l : Line) (s : State) : State :=
  let w := s.walk l
  let failed := (match (s.exch l).outcome with | some o => !o.isSuccess | none => false)
  if (s.planOf l).state = .halting then endHolder l .halted .none s
  else if w.writeReject then stopWalk l .memoryReject s
  else if failed && !w.copy.tolerate then stopWalk l .exchangeFailed s
  else
    match w.group.getLast? with
    | some m => goOn l m.addr m.chain w.copy.hold s
    | none => s

/-- R39, R78: the tally of an exchange in RESOLVING has reached 0: the pin is released, the phase becomes NONE, the group is
counted, and the walk decides. -/
def exchangeEnds (l : Line) (s : State) : State :=
  let s := (releasePin l s).modExch l Exchange.over
  afterExchange l (decideAfter l (finishGroup l s))

/-- R39, R76: the answer to a reply data or result write of an exchange still in flight: the tally falls, a reject is kept. -/
def tallyAnswer (l : Line) (accepted : Bool) (s : State) : State :=
  s.modWalk l fun w => { w with tally := w.tally - 1, writeReject := w.writeReject || !accepted }

/-! ### Giving up an exchange (R82, R83, R85) -/

/-- R38, R82, R83, R85: the result writes of an exchange given up after an attempt had begun; the station's toggle becomes
unknown when a request frame had begun. -/
def resultsOfGivenUp (l : Line) (outcome : ExchangeOutcome) (s : State) : State :=
  let e := s.exch l
  if e.attempts = 0 then s
  else
    let s := s.modExch l fun e => { e with outcome := some outcome }
    let s := if e.frameBegun then markEntry l StationRecord.forgetToggle s else s
    finishGroup l (queueResults l outcome s)

/-- R82, R83, R85: an exchange is given up before RESOLVING. The rules give no order between the result writes and the release of
the pin, which may let a stalled lookup hand over a write-back; the model queues the result writes first (log 28). -/
def giveUpExchange (l : Line) (outcome : ExchangeOutcome) (s : State) : State :=
  (releasePin l (resultsOfGivenUp l outcome (withdrawLookup l s))).modExch l Exchange.over

/-- R78: a cut taken in RESOLVING: the pin is released; the result writes stand. The group is finished with (R43, log 7). -/
def cutResolving (l : Line) (s : State) : State := (releasePin l (finishGroup l s)).modExch l Exchange.over

/-- R83: abandonment is complete: the exchange ends ABANDONED, and its HALTING plan ends HALTED. -/
def concludeAbandon (l : Line) (s : State) : State :=
  afterExchange l (endHolder l .halted .none (giveUpExchange l .abandoned s))

/-- R15, R82: a halt with nothing on the line: the exchange, if any, is given up, and the plan ends at once. -/
def haltNow (l : Line) (s : State) : State :=
  let s := if (s.walk l).state = .exchanging then giveUpExchange l .abandoned s else s
  afterExchange l (endHolder l .halted .none s)

/-! ### The request payload (R68) -/

/-- R68: the payload read of an exchange in PREPARING is answered. -/
def payloadAnswered (l : Line) (a : ReadAnswer) (s : State) : State :=
  if (s.exch l).phase ≠ .preparing then s
  else
    match a with
    | .accept data => s.modExch l fun e => { e with phase := .budgetWait, txBuffer := data }
    | .reject =>
        let s := (releasePin l s).modExch l Exchange.over
        afterExchange l (stopWalk l .memoryReject s)

end Sys2Proof.Machine
end

