-- ==== Sys2Proof/Machine/Attempt.lean ====
section
/-! DEFINITION. Attempts: the Engine's side (R69 to R77) and the Line Controller's (Section 5), from the grant of a frame to
the guard gap. -/

namespace Sys2Proof.Machine

/-! ### The Line Controller (R88, R99) -/

/-- R90: the level of the receive input, wherever it is watched. -/
def setInput (l : Line) (v : Level) (s : State) : State := s.modLine l fun c => { c with input := v }

/-- R99: the guard timer as SETTLING starts it: held at the full guard gap while the input is at space. -/
def guardFor (input : Level) (gap : Nat) : GuardTimer :=
  match input with
  | .mark => .running gap
  | .space => .held gap

/-- R99: the line enters SETTLING; no character is sent or received, and the timers of the attempt stop. -/
def LineController.settle (c : LineController) (gap : Nat) : LineController :=
  { c with state := .settling, tx := .none, rx := none, replyStart := .stopped, charGap := .stopped, abort := .stopped,
           guard := guardFor c.input gap }

def enterSettling (l : Line) (s : State) : State := s.modLine l (·.settle (s.driver l).setup.guardGap)

/-- R99, R127: the line enters READY; activity there makes it SETTLING, so an input at space does so at once (log 13). -/
def enterReady (l : Line) (s : State) : State :=
  match (s.lineCtl l).input with
  | .mark => s.modLine l fun c => { c with state := .ready, guard := .stopped }
  | .space => enterSettling l s

/-- R97, R100, R101: the receive FIFO is emptied; a payload byte that waited with it waits no more. -/
def emptyFifo (l : Line) (s : State) : State :=
  let s := s.modLine l fun c => { c with fifo := [], frameReceived := false }
  pumpWaiting (s.setPort (s.port.dropPayloadWait l))

/-! ### The end of an attempt (R70 to R73) -/

/-- R72: the results that raise the bucket. -/
def AttemptResult.failsStation : AttemptResult → Bool
  | .noReply => true
  | .corrupt => true
  | .stale => true
  | .truncated => true
  | _ => false

/-- R73: the results after which no further attempt is made. -/
def AttemptResult.isFinal : AttemptResult → Bool
  | .refused => true
  | .valid => true
  | _ => false

/-- R73: another attempt is due: after BACKOFF for BUSY, in BUDGET_WAIT otherwise. -/
def Exchange.retryAfter (e : Exchange) (r : AttemptResult) (busyBackoff : Nat) : Exchange :=
  if r = .busy then { e with retryPending := true, phase := .backoff, backoff := .running busyBackoff }
  else { e with retryPending := true, phase := .budgetWait }

/-- R72: the entry held has reached the quarantine limit. -/
def State.overLimit (s : State) (l : Line) : Bool :=
  match s.heldCopy l with
  | some r => decide ((s.driver l).setup.quarantineLimit ≤ r.bucket)
  | none => false

/-- R72, R73: an attempt ends with a result. -/
def attemptEnds (l : Line) (r : AttemptResult) (s : State) : State :=
  let s := s.modExch l fun e =>
    { e with finalResult := some r, everySilent := e.everySilent && decide (r = .noReply), storing := false }
  let s := if r.failsStation then changeEntry l StationRecord.fail s else s
  let e := s.exch l
  if r.failsStation && s.overLimit l then enterResolving l .quarantined (changeEntry l StationRecord.quarantine s)
  else if !r.isFinal && decide (e.attempts < e.allowance) then
    s.modExch l (·.retryAfter r (s.driver l).setup.busyBackoff)
  else enterResolving l (outcomeOf (s.walk l) r e.finalReply) s

/-- R71: the result of a complete reply, from its control echo and station status. -/
def judgeReply (sentToggle : Bool) (control status : Byte) : AttemptResult :=
  if toggleEcho control ≠ sentToggle then .stale
  else if busyBit status then .busy
  else if refusalFlag control then .refused
  else .valid

/-- R71: a valid reply is recorded. -/
def Exchange.recordReply (e : Exchange) : Exchange :=
  let reply : ValidReply := { status := e.status, length := e.replyLength, refused := refusalFlag e.control }
  { e with anyValid := true, lastValid := some reply, finalReply := some reply }

/-- R71, R96: reply complete. -/
def replyComplete (l : Line) (s : State) : State :=
  let e := s.exch l
  let r := judgeReply e.sentToggle e.control e.status
  let s := s.modLine l fun c => { c with frameReceived := false }
  attemptEnds l r (if r = .stale then s else s.modExch l Exchange.recordReply)

/-- R97, R98, R95: an attempt in RECEIVING ends with an error: the FIFO is emptied and the line settles. -/
def receptionFails (l : Line) (r : AttemptResult) (s : State) : State :=
  attemptEnds l r (enterSettling l (emptyFifo l s))

/-! ### Taking characters from the FIFO (R34, R75, R97) -/

/-- The place of the first member from place `i` on that has a reply capacity above 0; the length of the group where none has. -/
def nextBuffer (g : List Member) (i : Nat) : Nat :=
  i + ((g.drop i).takeWhile fun m => decide (m.capacity = 0)).length

/-- R34: the address at the reply storage cursor; none where the cursor has passed the last member. -/
def State.cursorAddr (s : State) (l : Line) : Option Word :=
  let e := s.exch l
  ((s.walk l).group[e.cursorMember]?).map fun m => m.replyAddr + BitVec.ofNat 32 e.cursorOffset

/-- R34: the cursor moves on by one byte. -/
def Exchange.advanceCursor (e : Exchange) (g : List Member) : Exchange :=
  match g[e.cursorMember]? with
  | none => e
  | some m =>
      if e.cursorOffset + 1 < m.capacity then { e with cursorOffset := e.cursorOffset + 1 }
      else { e with cursorMember := nextBuffer g (e.cursorMember + 1), cursorOffset := 0 }

/-- R34: the member at a place counts one byte more. -/
def countStored (g : List Member) (i : Nat) : List Member :=
  g.mapIdx fun j m => if j = i then { m with stored := m.stored + 1 } else m

/-- The write that a stored payload byte makes where it does not merge. -/
def replyDataEntry (s : State) (l : Line) (addr : Word) (b : Byte) : WriteEntry :=
  { addr := addr, data := [b], agent := (s.planOf l).agent, writer := .engine l, op := .replyData l (s.slotOf l) true }

/-- R75, R163: the byte at an address can merge or become a new entry. -/
def State.canTake (s : State) (l : Line) (addr : Word) : Bool := s.port.canMerge l addr || s.port.roomForPayload l

/-- R163: a reply data byte merges into the tail entry, or becomes a new entry, which counts in the tally and in the plan's
outstanding writes. -/
def postByte (l : Line) (addr : Word) (b : Byte) (s : State) : State :=
  if s.port.canMerge l addr then s.setPort (s.port.mergeByte b)
  else
    let s := s.setPort (s.port.join (replyDataEntry s l addr b))
    let s := s.modWalk l fun w => { w with tally := w.tally + 1 }
    s.modPlan (s.slotOf l) fun p => { p with outstanding := p.outstanding + 1 }

/-- R34, R75: a stored payload byte is handed over; the cursor and the member count move. -/
def storeByte (l : Line) (addr : Word) (b : Byte) (s : State) : State :=
  let s := postByte l addr b s
  let s := s.setPort (s.port.dropPayloadWait l)
  let i := (s.exch l).cursorMember
  let g := (s.walk l).group
  (s.modExch l (·.advanceCursor g)).modWalk l fun w => { w with group := countStored w.group i }

/-- R34, R75: the Engine takes a header character; with the fifth, storing is fixed, and the cursor of an attempt that is to be
stored restarts. -/
def Exchange.takeHeader (e : Exchange) (c : Byte) (g : List Member) (writeReject : Bool) : Exchange :=
  match e.taken with
  | 2 => { e with control := c }
  | 3 => { e with status := c }
  | 4 =>
      let r := judgeReply e.sentToggle e.control e.status
      let store := decide (r ≠ .stale) && decide (r ≠ .busy) && !writeReject
      let e := { e with replyLength := c.toNat, storing := store }
      if store then { e with cursorMember := nextBuffer g 0, cursorOffset := 0 } else e
  | _ => e

/-- The next character to be taken is a payload character. -/
def Exchange.atPayload (e : Exchange) : Bool := decide (5 ≤ e.taken) && decide (e.taken < 5 + e.replyLength)

/-- R75: the address where the payload character at the head of the FIFO is to be stored; none where the next character is
taken at once. -/
def State.storeAddr (s : State) (l : Line) : Option Word :=
  let e := s.exch l
  if e.atPayload && e.storing then s.cursorAddr l else none

/-- A character that is not stored is taken: a header character is kept, and the others are dropped. -/
def takePlain (l : Line) (c : Byte) (s : State) : State :=
  let w := s.walk l
  s.modExch l fun e => if e.atPayload then e else e.takeHeader c w.group w.writeReject

/-- R75: the Engine takes characters from the head of the FIFO: payload bytes that are to be stored while the posting queue can
take them, and every other character at once. A stored byte that stays at the head waits (log 5). -/
def drainFifo : Nat → Line → State → State
  | 0, _, s => s
  | fuel + 1, l, s =>
      match (s.lineCtl l).fifo with
      | [] => s
      | c :: rest =>
          let popped := s.modLine l fun x => { x with fifo := rest }
          let counted (t : State) : State := t.modExch l fun e => { e with taken := e.taken + 1 }
          match s.storeAddr l with
          | none => drainFifo fuel l (counted (takePlain l c popped))
          | some addr =>
              if s.canTake l addr then drainFifo fuel l (counted (storeByte l addr c popped))
              else s.setPort (s.port.waitPayload l)

/-- R96: the Engine has taken the xor check character of a complete frame. -/
def State.frameTaken (s : State) (l : Line) : Bool :=
  (s.lineCtl l).frameReceived && (s.lineCtl l).fifo.isEmpty

/-- R75, R96: the Engine takes what it can; with the last character of the frame, reply complete is reported. -/
def takeCharacters (l : Line) (s : State) : State :=
  let s := pumpWaiting (drainFifo 33 l s)
  if s.frameTaken l then replyComplete l s else s

/-! ### Receiving (R90, R92, R95 to R98) -/

/-- R92: the check of the character at a position of the reply. -/
def LineController.accepts (c : LineController) (station : Byte) (p : Nat) (data : Byte) : Bool :=
  if p = 1 then decide (data = replyLead)
  else if p = 2 then decide (data = station)
  else if p = 5 then decide (data.toNat ≤ 240)
  else
    match c.expected with
    | none => true
    | some n => if p + 1 = n then decide (data = c.sum) else if p = n then decide (data = c.xor) else true

/-- R92: the expected reply length after the character at a position. -/
def LineController.expectedAfter (c : LineController) (p : Nat) (data : Byte) : Option Nat :=
  if p = 5 then some (7 + data.toNat) else c.expected

/-- R92: the checks accumulate from the address echo to the last payload character. -/
def LineController.inChecks (c : LineController) (p : Nat) : Bool :=
  decide (2 ≤ p) && (match c.expected with | some n => decide (p + 2 ≤ n) | none => true)

/-- R92, R95: a good character at position `p` is placed in the FIFO and the receive position moves on. -/
def LineController.receive (c : LineController) (p : Nat) (data : Byte) (gap : Nat) : LineController :=
  let expected := c.expectedAfter p data
  { c with
    fifo := c.fifo ++ [data], rx := some (p + 1), expected := expected,
    sum := if p = 1 then 0 else if c.inChecks p then c.sum + data else c.sum,
    xor := if p = 1 then 0 else if c.inChecks p then c.xor ^^^ data else c.xor,
    charGap := .running gap }

/-- R92, R96: the character at this position is the xor check. -/
def LineController.isLast (c : LineController) (p : Nat) : Bool := decide (c.expected = some p)

/-- R90: the character's framing and parity are good. -/
def goodCharacter (parity : Bool) (data : Byte) (parityBit : Bool) (stopBit : Level) : Bool :=
  decide (stopBit = .mark) && (!parity || evenParity data parityBit)

/-- The receive FIFO's room (R97). -/
def fifoCapacity : Nat := 32

/-- R95 to R98: a reply character completes at position `p` of a line in RECEIVING. -/
def characterCompletes (l : Line) (p : Nat) (data : Byte) (parityBit : Bool) (stopBit : Level) (s : State) : State :=
  let s := setInput l stopBit s
  let c := s.lineCtl l
  let setup := (s.driver l).setup
  if fifoCapacity ≤ c.fifo.length then receptionFails l .overrun s
  else if !goodCharacter setup.parity data parityBit stopBit || !c.accepts (s.exch l).station p data then
    receptionFails l .corrupt s
  else
    let s := s.modLine l (·.receive p data setup.charGap)
    let s :=
      if c.isLast p then enterSettling l (s.modLine l fun c => { c with frameReceived := true }) else s
    takeCharacters l s

/-! ### Sending (R69, R70, R93, R100) -/

/-- R69: the frames that the current zone admits in a window; none where it admits every frame. -/
def Driver.budget (d : Driver) : Option Nat :=
  match d.zone with
  | .cool => if d.setup.coolBudget = 0 then none else some d.setup.coolBudget
  | .warm => if d.setup.warmBudget = 0 then none else some d.setup.warmBudget
  | .hot => some d.setup.hotBudget

/-- R69, R129: the Driver Monitor admits a frame. -/
def Driver.admits (d : Driver) : Bool :=
  match d.budget with
  | none => true
  | some n => decide (d.windowCount < n)

/-- R69: a new attempt in the exchange record. -/
def Exchange.beginAttempt (e : Exchange) : Exchange :=
  { e with phase := .onLine, attempts := e.attempts + 1, retryPending := false, storing := false, taken := 0,
           finalReply := none, everySilent := if e.attempts = 0 then true else e.everySilent,
           frameBegun := e.frameBegun || decide (e.wakeLead = 0) }

/-- R93: the Line Controller begins an attempt. The model's choice (log 32): R88, R92 and R101 do not say when the expected reply
length goes back to none after an attempt; it keeps the last reply's value through SETTLING, READY and CUT (and through DISABLED and
POWERING) and is cleared here, when the next attempt begins. -/
def LineController.beginAttempt (c : LineController) (wakeLead : Nat) : LineController :=
  if wakeLead = 0 then { c with state := .sending, tx := .frame 1, rx := none, expected := none }
  else { c with state := .waking, tx := .wake 1, rx := none, expected := none }

/-- R69: the grant of budget and the beginning of an attempt, one step. -/
def beginAttempt (l : Line) (s : State) : State :=
  let wakeLead := (s.exch l).wakeLead
  let s := s.modDriver l fun d => { d with windowCount := if d.windowCount < 255 then d.windowCount + 1 else d.windowCount }
  let s := s.modWalk l fun w => { w with group := w.group.map fun m => { m with stored := 0 } }
  (s.modExch l Exchange.beginAttempt).modLine l (·.beginAttempt wakeLead)

/-- R100: the abort mark, in character times. -/
def abortTime : Nat := 2

/-- R100: the character being sent under an abandonment is complete: the line enters ABORTING. -/
def enterAborting (l : Line) (s : State) : State :=
  s.modLine l fun c => { c with state := .aborting, tx := .none, abort := .running abortTime }

/-- R93: the request frame follows the wake lead, and the Engine sets frame begun. -/
def beginFrame (l : Line) (s : State) : State :=
  (s.modLine l fun c => { c with state := .sending, tx := .frame 1 }).modExch l fun e => { e with frameBegun := true }

/-- R87, R93: the request's last check character is complete. -/
def frameSent (l : Line) (s : State) : State :=
  if (s.exch l).station = 0 then enterResolving l .sent (enterSettling l s)
  else
    s.modLine l fun c =>
      { c with state := .awaiting, tx := .none, replyStart := .running (s.driver l).setup.replyStart }

/-- R91: the number of characters of the request frame in hand. -/
def State.frameLength (s : State) (l : Line) : Nat := 7 + (s.exch l).txBuffer.length

/-- R89, R91: the character being sent, with its place in the wake lead or in the request frame. -/
def State.sentCharacter (s : State) (l : Line) : Option Byte :=
  let e := s.exch l
  match (s.lineCtl l).tx with
  | .none => none
  | .wake _ => some wakeCharacter
  | .frame n =>
      (requestFrame e.station (controlCharacter e.sentToggle e.fresh) (s.walk l).copy.function e.txBuffer)[n - 1]?

/-- R89: the levels of the character being sent, one for each bit time, in the format of the setup in force. -/
def State.sentLevels (s : State) (l : Line) : List Level :=
  match s.sentCharacter l with
  | some c => characterLevels (s.driver l).setup.parity c
  | none => []

/-- R93: the next character of the wake lead or of the frame is being sent (log 1). After the last one the position stays: that
character's completion is WAKE_LEAD_SENT or REQUEST_FRAME_SENT (log 30). -/
def TxPosition.advance (t : TxPosition) (wakeLead frameLength : Nat) : TxPosition :=
  match t with
  | .none => .none
  | .wake n => if n < wakeLead then .wake (n + 1) else .wake n
  | .frame n => if n < frameLength then .frame (n + 1) else .frame n

/-! ### Abandonment (R83, R100) -/

/-- R100: the Engine asks the Line Controller to abandon the attempt on the line. -/
def abandonAttempt (l : Line) (s : State) : State :=
  let s := s.modExch l fun e => { e with abandon := true, storing := false }
  match (s.lineCtl l).state with
  | .waking => s
  | .sending => s
  | .aborting => s
  | .awaiting => concludeAbandon l (enterSettling l s)
  | .receiving => concludeAbandon l (enterSettling l (emptyFifo l s))
  | _ => concludeAbandon l (emptyFifo l s)

end Sys2Proof.Machine
end

