-- ==== Sys2Proof/Machine/Supervision.lean ====
section
/-! DEFINITION. The Driver Monitor (Section 7): zones, budget windows, trips and the cut, bringing a line up, restoring it and
taking it down. -/

namespace Sys2Proof.Machine

/-! ### Zones (R128) -/

/-- R128: the zone after a sample, against the warm threshold `w` and the hot threshold `h`. -/
def Zone.next (z : Zone) (w h : Nat) (sample : Int) : Zone :=
  match z with
  | .cool => if (h : Int) ≤ sample then .hot else if (w : Int) ≤ sample then .warm else .cool
  | .warm => if (h : Int) ≤ sample then .hot else if (w : Int) - 5 ≤ sample then .warm else .cool
  | .hot => if (h : Int) - 5 ≤ sample then .hot else if (w : Int) - 5 ≤ sample then .warm else .cool

/-- R130: THERMAL is active. -/
def Driver.thermal (d : Driver) : Bool := decide (d.zone = .hot) && decide (d.setup.hotBudget = 0)

/-! ### Trips (R130 to R132) -/

/-- R131: the line itself is cut. -/
def LineController.cut (c : LineController) : LineController :=
  { c with state := .cut, tx := .none, rx := none, fifo := [], replyStart := .stopped, charGap := .stopped,
           guard := .stopped, abort := .stopped, frameReceived := false }

/-- R131 steps 1 and 2: the Engine's part of a cut (R85, R78). -/
def cutExchange (l : Line) (s : State) : State :=
  if (s.walk l).state ≠ .exchanging then s
  else if (s.exch l).phase = .resolving then cutResolving l s
  else giveUpExchange l .cut s

/-- R13: the holder ends: FAULTED with LINE_CUT, or HALTED with the detail line flag set when it was HALTING. -/
def cutHolder (l : Line) (s : State) : State :=
  match (s.sched l).holder with
  | none => leaveWalk l s
  | some i =>
      if (s.plan i).state = .halting then
        endHolder l .halted .none (s.modPlan i fun p => { p with detailLine := true })
      else endHolder l .faulted .lineCut s

/-- R131: the cut, one step. A LINE_DISABLE that waits for the exchange takes its ending step with it (R136). -/
def cutLine (l : Line) (place : Byte) (s : State) : State :=
  let s := s.modLine l LineController.cut
  let s := pumpWaiting (s.setPort (s.port.dropPayloadWait l))
  let s := s.modDriver l fun d => { d with settleTimer := .stopped }
  let s := cutHolder l (cutExchange l s)
  let s := recordFault .lineTrip l place 0 s
  if (s.driver l).disable = .waitingExchange then endingStep l s else s

/-- R130: an onset is taken: a trip of a line that is neither DISABLED nor CUT. -/
def takeOnset (l : Line) (place : Byte) (s : State) : State :=
  if (s.lineCtl l).state = .disabled ∨ (s.lineCtl l).state = .cut then s
  else if (s.driver l).setup.cutoff = .ignore then recordFault .tripIgnored l place 0 s
  else cutLine l place s

/-- R147: the source code of a trip input. -/
def tripPlace : TripPin → Byte
  | .overcurrent => 1
  | .tripInput => 2

/-- R147: the source code of THERMAL. -/
def thermalPlace : Byte := 4

/-- The level of a trip source as the monitor looks at it (R130). -/
def Driver.source (d : Driver) : TripPin → Bool
  | .overcurrent => d.overcurrent
  | .tripInput => d.tripInput

/-- The level of the input of a trip source. -/
def Driver.pin (d : Driver) : TripPin → Bool
  | .overcurrent => d.pinOvercurrent
  | .tripInput => d.pinTripInput

def Driver.setSource (d : Driver) (p : TripPin) (b : Bool) : Driver :=
  match p with
  | .overcurrent => { d with overcurrent := b }
  | .tripInput => { d with tripInput := b }

def Driver.setPin (d : Driver) (p : TripPin) (b : Bool) : Driver :=
  match p with
  | .overcurrent => { d with pinOvercurrent := b }
  | .tripInput => { d with pinTripInput := b }

/-- R130: an input becomes active. Nobody looks at the source of a DISABLED line. -/
def tripOnset (l : Line) (p : TripPin) (s : State) : State :=
  let s := s.modDriver l (·.setPin p true)
  if (s.lineCtl l).state = .disabled ∨ (s.driver l).source p then s
  else takeOnset l (tripPlace p) (s.modDriver l (·.setSource p true))

/-- R130: an input falls back to inactive. -/
def tripCleared (l : Line) (p : TripPin) (s : State) : State :=
  s.modDriver l fun d => (d.setPin p false).setSource p false

/-- R128, R130: a sample moves the zone; entering HOT with a HOT budget of 0 is the onset of THERMAL. -/
def sample (l : Line) (degrees : Int) (s : State) : State :=
  let before := (s.driver l).thermal
  let s := s.modDriver l fun d => { d with zone := d.zone.next d.setup.warm d.setup.hot degrees }
  if (s.driver l).thermal && !before then takeOnset l thermalPlace s else s

/-- R133: the value of STILL_TRIPPED: 1 for OVERCURRENT, 2 for TRIP_INPUT, 4 for THERMAL. -/
def Driver.tripSum (d : Driver) : Nat :=
  (if d.overcurrent then 1 else 0) + (if d.tripInput then 2 else 0) + (if d.thermal then 4 else 0)

/-! ### Bringing a line up (R126, R127) -/

/-- R127: the settle timer expires: READY, and a selection. -/
def settleEnds (l : Line) (s : State) : State :=
  select l (enterReady l (s.modDriver l fun d => { d with settleTimer := .stopped }))

/-- R126, R133: the line becomes POWERING and the settle timer starts. -/
def power (l : Line) (s : State) : State :=
  let s := s.modLine l fun c => { c with state := .powering }
  s.modDriver l fun d => { d with settleTimer := .running d.setup.settle }

/-- R127: a settle time of 0 expires as soon as it starts, at the end of the step. -/
def settleAtOnce (l : Line) (s : State) : State :=
  if (s.lineCtl l).state = .powering ∧ (s.driver l).setup.settle = 0 then settleEnds l s else s

/-- R126, R133, R168: the write of the power epoch, line setup record 34h to 37h. -/
def writePowerEpoch (l : Line) (s : State) : State :=
  handOver { addr := lineRecordAddr s.unit.workBase l + 0x34, data := wordBytes (s.driver l).powerEpoch, agent := 0,
             writer := .driver l, op := .powerEpoch l } s

/-- R126 steps 1 to 4: the setup in force, the epochs, the zone, the count and the timers. -/
def Driver.enable (d : Driver) (u : Setup) (drainEpoch powerEpoch : Word) : Driver :=
  { d with setup := u, drainEpoch := drainEpoch, powerEpoch := powerEpoch + 1, zone := .cool, windowCount := 0,
           windowTimer := .running (100 * u.window), drainTimer := .running u.drainPeriod }

/-- The trip inputs that are active. -/
def Driver.activePins (d : Driver) : List TripPin :=
  [.overcurrent, .tripInput].filter fun p => d.pin p

/-- R126 step 6, R130: each source that is active is taken as an onset, in any order (log 4). -/
def lookAtSources (l : Line) (s : State) : State :=
  let s := s.modDriver l fun d => { d with overcurrent := d.pinOvercurrent, tripInput := d.pinTripInput }
  s.inFreeOrder (s.driver l).activePins fun p t => takeOnset l (tripPlace p) t

/-- R126: a LINE_ENABLE whose setup passes its checks, one step. -/
def acceptSetup (l : Line) (u : Setup) (drainEpoch powerEpoch : Word) (s : State) : State :=
  let s := power l (s.modDriver l (·.enable u drainEpoch powerEpoch))
  settleAtOnce l (writePowerEpoch l (lookAtSources l s))

/-- R125, R126: the setup read of LINE_ENABLE is answered. The line has stayed DISABLED, and the part OPEN, since the read was
queued (R126, R137). -/
def setupAnswered (l : Line) (a : ReadAnswer) (s : State) : State :=
  if (s.lineCtl l).state ≠ .disabled ∨ s.unit.partState ≠ .opened then s
  else
    match checkSetup a with
    | .error v => postVerdict 0 v.1 v.2 s
    | .ok u => acceptSetup l u (drainEpochAt (bytesOf a)) (powerEpochAt (bytesOf a)) s

/-- R126, R133: the power epoch write is answered. -/
def powerEpochAnswered (accepted : Bool) (s : State) : State := postVerdict 0 .done (writeValue accepted) s

/-- LINE_ENABLE (R126). -/
def enableLine (k : Agent) (l : Line) (s : State) : State :=
  if (s.lineCtl l).state ≠ .disabled then postVerdict k .wrongState 0 s
  else
    askRead { addr := lineRecordAddr s.unit.workBase l, length := 64, agent := 0, requester := .driver l, op := .setup l,
              live := true } (postPending k s)

/-! ### Restoring a line (R133) -/

/-- LINE_RESTORE (R133). -/
def restoreLine (k : Agent) (l : Line) (s : State) : State :=
  let d := s.driver l
  if (s.lineCtl l).state ≠ .cut then postVerdict k .wrongState 0 s
  else if d.tripSum ≠ 0 then postVerdict k .stillTripped (BitVec.ofNat 16 d.tripSum) s
  else if d.setup.cutoff = .holdMark then select l (enterSettling l (postVerdict k .done 0 s))
  else
    let s := s.modDriver l fun d => { d with powerEpoch := d.powerEpoch + 1 }
    settleAtOnce l (writePowerEpoch l (power l (postPending k s)))

/-! ### Taking a line down (R136, R137) -/

/-- LINE_DISABLE (R136). -/
def disableLine (k : Agent) (l : Line) (s : State) : State :=
  if (s.lineCtl l).state = .disabled then postVerdict k .wrongState 0 s
  else
    let s := postPending k s
    if (s.walk l).state = .exchanging then s.modDriver l fun d => { d with disable := .waitingExchange }
    else endingStep l s

/-- R137: the epoch write is answered. -/
def epochsAnswered (l : Line) (accepted : Bool) (s : State) : State :=
  postVerdict 0 .done (writeValue accepted) (s.modDriver l fun d => { d with disable := .none })

end Sys2Proof.Machine
end

