-- ==== Sys2Proof/Machine/Commands.lean ====
section
/-! DEFINITION. The Command Unit (Section 9) and the commands of the Plan Unit and the Line Scheduler: the taking of a command
word, its checks, OPEN, CLOSE, the resets, START, HALT, RELEASE, FLOOR, ALARMS_TAKEN. -/

namespace Sys2Proof.Machine

/-! ### Taking a command word (R152 to R154) -/

/-- Command codes (Section 11.4). -/
def openCode : BitVec 4 := 1
def closeCode : BitVec 4 := 2
def resetCode : BitVec 4 := 3
def startCode : BitVec 4 := 4
def haltCode : BitVec 4 := 5
def releaseCode : BitVec 4 := 6
def floorCode : BitVec 4 := 7
def lineEnableCode : BitVec 4 := 8
def lineDisableCode : BitVec 4 := 9
def lineRestoreCode : BitVec 4 := 10
def flushCode : BitVec 4 := 11
def flushLineCode : BitVec 4 := 12
def alarmsTakenCode : BitVec 4 := 13

/-- R154 check 1: the code is one of the thirteen. -/
def isKnownCode (c : BitVec 4) : Bool := decide (1 ≤ c.toNat) && decide (c.toNat ≤ 13)

/-- R154 check 3: codes taken from agent 0 only. -/
def isAdminCode (c : BitVec 4) : Bool :=
  decide (c = openCode) || decide (c = closeCode) || decide (c = resetCode) || decide (c = lineEnableCode)
    || decide (c = lineDisableCode) || decide (c = lineRestoreCode)

/-- R154: the verdict of the first check that fails. The last paragraph of R158 has a word of another agent taken after RESET_PART
refused with NOT_OPEN unless it is an OPEN from agent 0; for an OPEN or a RESET_PART of agents 1 to 3 this differs from the order of
R154, which gives NOT_PERMITTED. The model's choice is R154 (log 35). -/
def State.refusal (s : State) (k : Agent) (c : BitVec 4) : Option VerdictCode :=
  if !isKnownCode c then some .invalidArgument
  else if !(decide (s.unit.partState = .opened) && !s.unit.openInProgress) && decide (c ≠ openCode) && decide (c ≠ resetCode)
  then some .notOpen
  else if isAdminCode c && decide (k ≠ 0) then some .notPermitted
  else none

/-- R152: a command word of agent `k`: dropped with OVERRUN while a command is in progress, but for agent 0's RESET_PART; taken
and checked by R154 otherwise, and handed to `act`. -/
def takeWord (k : Agent) (w : CommandWord) (act : State → State) (s : State) : State :=
  if (s.bank k).command.isSome && !(decide (k = 0) && decide (w.code = resetCode)) then
    s.modBank k fun b => { b with overrun := true }
  else
    match s.refusal k w.code with
    | some v => postVerdict k v 0 (s.modBank k fun b => { b with command := some w })
    | none =>
        if w.code = resetCode then act s else act (s.modBank k fun b => { b with command := some w })

/-- The command word of a command that names a line, an object and a value. -/
def wordOf (code : BitVec 4) (line : Line) (object : Byte) (value : Half) : CommandWord :=
  { code := code, line := line, object := object, value := value }

/-- The object field that names a slot. -/
def slotObject (i : Slot) : Byte := BitVec.ofNat 8 i.val

/-! ### OPEN and CLOSE (R155, R156) -/

/-- OPEN (R155). -/
def openPart (k : Agent) (s : State) : State :=
  if s.unit.partState = .opened then postVerdict k .wrongState 0 s
  else
    let s := postPending k (s.setUnit { s.unit with openInProgress := true })
    askRead { addr := s.unit.workBase, length := 64, agent := 0, requester := .commandUnit, op := .header, live := true } s

/-- R155: the header read of an OPEN is answered. -/
def headerAnswered (a : ReadAnswer) (s : State) : State :=
  if !s.unit.openInProgress then s
  else
    match checkHeader a with
    | .error v => postVerdict 0 v.1 v.2 (s.setUnit { s.unit with openInProgress := false })
    | .ok h => clearLists (s.setUnit { s.unit with openHeader := some h, openRejected := false })

/-- R155: the OPEN completes, one step. -/
def completeOpen (h : Header) (s : State) : State :=
  let s := s.setPort { s.port with windows := h.windows }
  let s := s.setBacklog { s.backlog with lowMark := h.lowMark, highMark := h.highMark, hold := false }
  let s := allFour.foldl (fun t l => t.modSched l fun x => { x with agingPeriod := h.agingPeriod }) s
  let rejected := s.unit.openRejected
  let s := s.setUnit { s.unit with partState := .opened, openInProgress := false, openHeader := none, openRejected := false }
  postVerdict 0 .done (writeValue (!rejected)) s

/-- R155: the OPEN goes on when all four lists have been cleared and answered. -/
def advanceOpen (s : State) : State :=
  match s.unit.openInProgress, s.unit.openHeader with
  | true, some h => if s.allCleared then completeOpen h s else s
  | _, _ => s

/-- R143, R155: the clearing write of a list is answered. -/
def clearAnswered (k : Agent) (accepted : Bool) (s : State) : State :=
  let s := pumpList k ((countWordLost k accepted s).modAlarm k fun a => { a with op := .none })
  advanceOpen (s.setUnit { s.unit with openRejected := s.unit.openRejected || !accepted })

/-- R156: CLOSE is refused with BUSY. -/
def State.closeBusy (s : State) : Bool :=
  allFour.any (fun l => decide ((s.lineCtl l).state ≠ .disabled))
    || allSlots.any fun i => decide ((s.plan i).state = .loading) || decide ((s.plan i).state = .ending)

/-- The plans that are ENDED. -/
def State.endedSlots (s : State) : List Slot := allSlots.filter fun i => decide ((s.plan i).state = .ended)

/-- CLOSE (R23, R156). -/
def closePart (k : Agent) (s : State) : State :=
  if s.closeBusy then postVerdict k .busy 0 s
  else
    let ended := s.endedSlots
    let s := ended.foldl (fun t i => t.setPlan i Plan.reset) s
    let s := s.setBacklog { s.backlog with count := 0, hold := false, masks := Vector.replicate 4 0 }
    postVerdict k .done (BitVec.ofNat 16 ended.length) (s.setUnit { s.unit with partState := .closed })

/-! ### Resets (R157, R158) -/

/-- A Driver Monitor after a reset: the levels of its inputs are pins and stay (log 14). -/
def Driver.afterReset (d : Driver) : Driver :=
  { Driver.reset with pinOvercurrent := d.pinOvercurrent, pinTripInput := d.pinTripInput }

/-- A Line Controller after a reset: the level of its input is a pin and stays (log 14). -/
def LineController.afterReset (c : LineController) : LineController := { LineController.reset with input := c.input }

/-- What both resets do to every block but the Command Unit and the Fault Log (R157, R158). -/
def resetBlocks (s : State) : State :=
  { State.reset with
    pending := s.pending, unit := s.unit, log := s.log, lines := s.lines.map LineController.afterReset,
    drivers := s.drivers.map Driver.afterReset, port := s.port.resetKeepingBus, readData := s.readData, choices := s.choices }

/-- The reset pin (R157). -/
def pinReset (s : State) : State := ((resetBlocks s).setUnit CommandUnit.reset).setLog FaultLog.reset

/-- R149, R158: a bank after RESET_PART: a command in progress is abandoned. -/
def Bank.afterResetPart (b : Bank) : Bank :=
  { Bank.reset with
    verdict := if b.command.isSome then { code := .abandoned, value := 0, command := b.commandCode } else b.verdict }

/-- R149: the Command Unit after RESET_PART. -/
def CommandUnit.afterResetPart (u : CommandUnit) : CommandUnit :=
  { CommandUnit.reset with workBase := u.workBase, banks := u.banks.map Bank.afterResetPart }

/-- RESET_PART (R158). -/
def partReset (k : Agent) (s : State) : State :=
  let s := (resetBlocks s).setUnit s.unit.afterResetPart
  s.modBank k fun b => { b with verdict := { code := .done, value := 0, command := resetCode } }

/-! ### START (R4 to R6) -/

/-- START (R4). -/
def startPlan (k : Agent) (i : Slot) (s : State) : State :=
  if (s.plan i).state ≠ .idle then postVerdict k .slotInUse 0 s
  else
    let s := postPending k (s.modPlan i fun p => { p with state := .loading, agent := k })
    askRead { addr := slotRecordAddr s.unit.workBase i, length := 64, agent := k, requester := .planUnit, op := .slotRecord i,
              live := true } s

/-- The longest interval of a plan, in ms (R5). -/
def longestInterval : Nat := 86400000

/-- R5: the verdict of the first check of a slot record that fails. -/
def State.checkSlotRecord (s : State) (k : Agent) (data : List Byte) : Option VerdictCode :=
  if 3 < (byteAt data 0x00).toNat then some .invalidArgument
  else if 7 < (byteAt data 0x01).toNat then some .invalidArgument
  else if longestInterval < (wordAt data 0x04).toNat then some .invalidArgument
  else if (s.lineCtl (low2 (byteAt data 0x00))).state = .disabled then some .lineNotReady
  else if (wordAt data 0x08).toNat % 32 ≠ 0 then some .window
  else if !(s.port.window k).contains (wordAt data 0x08) 32 then some .window
  else none

/-- R6: the context of an accepted plan. -/
def loadedPlan (k : Agent) (data : List Byte) : Plan :=
  { Plan.reset with
    state := .queued, agent := k, line := low2 (byteAt data 0x00), baseClass := (byteAt data 0x01).toNat,
    effClass := (byteAt data 0x01).toNat, noteRuns := (byteAt data 0x02).getLsbD 0, interval := wordAt data 0x04,
    firstAddr := wordAt data 0x08, label := wordAt data 0x0C, labelEcho := wordAt data 0x0C,
    currentAddr := wordAt data 0x08 }

/-- R5, R6: the load read of START is answered. -/
def slotAnswered (i : Slot) (a : ReadAnswer) (s : State) : State :=
  let k := (s.plan i).agent
  if (s.plan i).state ≠ .loading then s
  else
    match a with
    | .reject => postVerdict k .loadFault 0 (s.setPlan i Plan.reset)
    | .accept data =>
        match s.checkSlotRecord k data with
        | some v => postVerdict k v 0 (s.setPlan i Plan.reset)
        | none =>
            let s := joinQueue i (s.setPlan i (loadedPlan k data))
            select (loadedPlan k data).line (postVerdict k .done 0 s)

/-! ### HALT (R14 to R16) -/

/-- R15, R16: HALT of an ACTIVE plan. -/
def haltActive (i : Slot) (s : State) : State :=
  let l := (s.plan i).line
  if (s.walk l).state = .exchanging ∧ (s.exch l).phase = .onLine then
    abandonAttempt l (s.modPlan i fun p => { p with state := .halting })
  else if (s.walk l).state = .exchanging ∧ (s.exch l).phase = .resolving then
    s.modPlan i fun p => { p with state := .halting }
  else haltNow l s

/-- R15: HALT of a plan that does not hold its line. -/
def haltWaiting (i : Slot) (s : State) : State := endPlan i .halted .none (leaveQueue (s.plan i).line i s)

/-- HALT (R14). -/
def haltPlan (k : Agent) (i : Slot) (s : State) : State :=
  let p := s.plan i
  if p.state = .idle then postVerdict k .noPlan 0 s
  else if k ≠ p.agent ∧ k ≠ 0 then postVerdict k .notPermitted 0 s
  else
    match p.state with
    | .idle => s
    | .loading => postVerdict k .busy 0 s
    | .queued => haltWaiting i (postVerdict k .done 0 s)
    | .setAside => haltWaiting i (postVerdict k .done 0 s)
    | .waiting => haltWaiting i (postVerdict k .done 0 s)
    | .active => haltActive i (postVerdict k .done 0 s)
    | .halting => postVerdict k .done 1 s
    | .ending => postVerdict k .alreadyEnded 0 s
    | .ended => postVerdict k .alreadyEnded 0 s

/-! ### RELEASE (R22) -/

/-- R21, R22: an ENDED slot is freed; a hold cleared by it lets every line select. -/
def freeSlot (i : Slot) (s : State) : State :=
  let held := s.backlog.hold
  let s := (s.setBacklog (s.backlog.leave (s.plan i).agent i)).setPlan i Plan.reset
  if held && !s.backlog.hold then selectAll s else s

/-- RELEASE (R22). -/
def releasePlan (k : Agent) (i : Slot) (s : State) : State :=
  let p := s.plan i
  if p.state = .idle then postVerdict k .noPlan 0 s
  else if k ≠ p.agent ∧ k ≠ 0 then postVerdict k .notPermitted 0 s
  else if p.state = .loading ∨ p.state = .ending then postVerdict k .busy 0 s
  else if p.state ≠ .ended then postVerdict k .wrongState 0 s
  else freeSlot i (postVerdict k .done 0 s)

/-! ### FLOOR (R60, R61) -/

/-- FLOOR (R60, R61). -/
def setFloor (k : Agent) (l : Line) (value : Half) (s : State) : State :=
  if 8 < value.toNat then postVerdict k .invalidArgument 0 s
  else
    let old := (s.sched l).floor
    let s := s.modSched l fun x => { x with floor := value.toNat }
    let s := postVerdict k .done (BitVec.ofNat 16 old) s
    if value.toNat < old then select l s else s

/-! ### FLUSH, ALARMS_TAKEN (R119, R142) -/

/-- A station address that FLUSH takes (R119). -/
def isStation (a : Byte) : Bool := decide (1 ≤ a.toNat) && decide (a.toNat ≤ 250)

/-- FLUSH (R119). -/
def flushCommand (k : Agent) (l : Line) (station : Byte) (s : State) : State :=
  if !isStation station then postVerdict k .invalidArgument 0 s else flushStation k { line := l, station := station } s

/-- ALARMS_TAKEN (R142). -/
def takeAlarms (k : Agent) (n : Half) (s : State) : State :=
  pumpList k ((postPending k s).modAlarm k fun a => { a with take := some n.toNat })

/-! ### Command words by their code (R152, Section 11.4) -/

/-- R152, R154: a command word of any code. -/
def commandWord (k : Agent) (w : CommandWord) (s : State) : State :=
  takeWord k w
    (fun t =>
      if w.code = openCode then openPart k t
      else if w.code = closeCode then closePart k t
      else if w.code = resetCode then partReset k t
      else if w.code = startCode then startPlan k w.slot t
      else if w.code = haltCode then haltPlan k w.slot t
      else if w.code = releaseCode then releasePlan k w.slot t
      else if w.code = floorCode then setFloor k w.line w.value t
      else if w.code = lineEnableCode then enableLine k w.line t
      else if w.code = lineDisableCode then disableLine k w.line t
      else if w.code = lineRestoreCode then restoreLine k w.line t
      else if w.code = flushCode then flushCommand k w.line w.object t
      else if w.code = flushLineCode then flushLineFor k w.line t
      else if w.code = alarmsTakenCode then takeAlarms k w.value t
      else t)
    s

/-! ### Register writes and reads (R145, R148, R150, R151) -/

/-- R151: WORK_BASE may be written. -/
def State.workBaseFree (s : State) : Bool :=
  decide (s.unit.partState = .closed) && !s.unit.openInProgress &&
    allFour.all fun k =>
      decide ((s.alarm k).op = .none) && (s.alarm k).waiting.isEmpty && decide ((s.alarm k).take = none)

/-- R151: a write of WORK_BASE that passed the access check. -/
def writeWorkBase (k : Agent) (value : Word) (s : State) : State :=
  if k = 0 ∧ s.workBaseFree then s.setUnit { s.unit with workBase := value &&& 0xFFFFFF00 } else s

/-- R145, R170: a write of ENABLE. -/
def writeEnable (k : Agent) (value : Word) (s : State) : State :=
  s.modBank k fun b => { b with enable := value.extractLsb' 0 7 }

/-- R148: a write of FAULT_FIRST. -/
def writeFaultFirst (k : Agent) (value : Word) (s : State) : State :=
  if k = 0 ∧ value.getLsbD 0 then s.setLog { s.log with valid := false } else s

/-- R148: a write of FAULT_NEXT. -/
def writeFaultNext (k : Agent) (value : Word) (s : State) : State :=
  if k = 0 ∧ value.getLsbD 31 then s.setLog { s.log with nextMask := 0, nextCount := 0 } else s

/-- R144: a read of SUMMARY returns its flags as they stand and then clears NOTE and OVERRUN. -/
def readSummary (k : Agent) (first count : Nat) (s : State) : State :=
  let value := readLanes (s.readRegister k 0x1C) first count
  let s := s.modAlarm k fun a => { a with note := false }
  (s.modBank k fun b => { b with overrun := false }).setReadData value

/-- R150: the offset of the register an access reaches. -/
def registerOffset (offset : BitVec 6) : Nat := offset.toNat / 4 * 4

/-- R151: an access whose check bit disagrees is ignored and logged; a read returns 0. -/
def failAccess (k : Agent) (offset : BitVec 6) (isRead : Bool) (s : State) : State :=
  let s := recordFault .accessCheck 0 (BitVec.ofNat 8 (registerOffset offset)) k s
  if isRead then s.setReadData 0 else s

/-- R150: a 32-bit write that passed the access check, by the register it reaches. -/
def writeRegister (k : Agent) (offset : Nat) (value : Word) (s : State) : State :=
  if offset = 0x08 then writeWorkBase k value s
  else if offset = 0x0C then writeFaultFirst k value s
  else if offset = 0x10 then writeFaultNext k value s
  else if offset = 0x14 then commandWord k (commandWordOf value) s
  else if offset = 0x20 then writeEnable k value s
  else s

/-- R150, R151: a write of any width with any check bit; one of fewer than 4 bytes is ignored. -/
def writeAccess (k : Agent) (check : Bool) (offset : BitVec 6) (count : Nat) (value : Word) (s : State) : State :=
  if check ≠ checkBit k then failAccess k offset false s
  else if count = 4 ∧ offset.toNat % 4 = 0 then writeRegister k offset.toNat value s
  else s

end Sys2Proof.Machine
end

