-- ==== Sys2Proof/WellFormed.lean ====
section
/-! DEFINITION. Which terms of `Instr` are commands or events the part can meet: the operands' ranges that their types
do not already give. -/

namespace Sys2Proof

/-- An accepted read answer carries exactly `n` bytes (R164: a read names a number of bytes). -/
def ReadAnswer.hasLength (n : Nat) : ReadAnswer → Bool
  | .accept data => data.length == n
  | .reject => true

/-- An accepted answer to a request payload read carries 1 to 240 bytes (R68). -/
def ReadAnswer.isPayload : ReadAnswer → Bool
  | .accept data => 1 ≤ data.length && data.length ≤ 240
  | .reject => true

/-- An accepted answer to the entry read of a take carries 1 to 15 whole entries (R142). -/
def ReadAnswer.isEntries : ReadAnswer → Bool
  | .accept data => 4 ≤ data.length && data.length ≤ 60 && data.length % 4 == 0
  | .reject => true

/-- The operand checks of each row; a row without one takes every operand its types allow. -/
def WellFormed : Instr → Bool
  | .summaryRead _ first count => 1 ≤ count && first + count ≤ 4
  | .registerWrite _ _ offset count _ =>
      1 ≤ count && offset.toNat % 4 + count ≤ 4
  | .slotLoadAnswer a => a.hasLength 64
  | .descriptorReadAnswer a => a.hasLength 32
  | .payloadReadAnswer a => a.isPayload
  | .stationLoadAnswer a => a.hasLength 32
  | .takeReadAnswer a => a.isEntries
  | .headerReadAnswer a => a.hasLength 64
  | .setupReadAnswer a => a.hasLength 64
  | .openPart _ | .closePart _ | .resetPart _ | .start _ _ | .halt _ _ | .release _ _ | .floor _ _ _
  | .lineEnable _ _ | .lineDisable _ _ | .lineRestore _ _ | .flush _ _ _ | .flushLine _ _ | .alarmsTaken _ _
  | .workBaseWrite _ _ | .enableWrite _ _ | .faultFirstWrite _ _ | .faultNextWrite _ _ | .accessCheck _ _ _
  | .resetPin | .tripOnset _ _ | .tripSourceCleared _ _ | .temperatureSample _ _ | .budgetWindowExpiry _
  | .drainExpiry _ | .settleExpiry _ | .intervalExpiry _ | .agingExpiry _ | .pauseExpiry _ | .backoffExpiry _
  | .boundaryDecision _ | .attemptBegin _ | .wakeLeadSent _ | .requestFrameSent _ | .replyStartTimeout _
  | .replyCharacter _ _ _ _ | .characterGapExpiry _ | .payloadByteTaken _ | .lineActivity _ | .guardExpiry _
  | .abortExpiry _ | .requestIssue | .answerTimeout | .replyDataWriteAnswer _ | .resultWriteAnswer _
  | .progressWriteAnswer _ | .finalStatusWriteAnswer _ | .writebackAnswer _ | .alarmEntryWriteAnswer _
  | .alarmCountWriteAnswer _ | .moveWriteAnswer _ | .takeCountWriteAnswer _ | .clearCountWriteAnswer _
  | .powerEpochWriteAnswer _ | .epochWriteAnswer _ | .startBitConfirmed _ | .sentCharacterComplete _
  | .inputReturnsToMark _ => true

end Sys2Proof
end

