-- ==== Sys2Proof/Machine/Answers.lean ====
section
/-! DEFINITION. Answers of memory (R166): what the answer to each read and each write does, and how an answer reaches its block. -/

namespace Sys2Proof.Machine

/-! ### Answers to writes of an exchange (R39, R76) -/

/-- R76: a reject taken while an attempt is on the line: storing stays clear, and waiting payload is taken and dropped. -/
def dropStoring (l : Line) (s : State) : State :=
  let s := s.modExch l fun e => { e with storing := false }
  if (s.exch l).phase = .onLine ∧ !(s.exch l).abandon then takeCharacters l (s.setPort (s.port.dropPayloadWait l)) else s

/-- R39, R76: the answer reaches the exchange in flight; at tally 0 an exchange in RESOLVING ends. -/
def exchangeAnswered (l : Line) (accepted : Bool) (s : State) : State :=
  let s := tallyAnswer l accepted s
  if (s.exch l).phase = .resolving then (if (s.walk l).tally = 0 then exchangeEnds l s else s)
  else if accepted then s
  else dropStoring l s

/-- R18, R19, R39, R44: the answer to a reply data or result write. It lowers the plan's outstanding count, reaches its exchange
if that has not been given up, and lets the plan's next status write go on. The model's choice (log 31): where one answer brings the
outstanding count to 0 while an older progress write is owed, and also ends the exchange or its attempt, R18 and R39 give no order
between the two; the exchange goes first, so a plan that ends with it folds that progress write into its final status write. -/
def exchangeWriteAnswered (l : Line) (i : Slot) (live accepted : Bool) (s : State) : State :=
  let s := planWriteAnswered i s
  if live then pumpProgress i (exchangeAnswered l accepted s) else reportAfterAnswer i s

/-! ### Delivery (R166) -/

/-- The answer to a read is delivered to the block that asked, unless the block no longer takes it (R44, R167). -/
def deliverRead (r : ReadRequest) (a : ReadAnswer) (s : State) : State :=
  if !r.live then s
  else
    match r.op with
    | .header => headerAnswered a s
    | .setup l => setupAnswered l a s
    | .slotRecord i => slotAnswered i a s
    | .descriptor l => descriptorAnswered l a s
    | .payload l => payloadAnswered l a s
    | .station k => stationLoadAnswered k r.agent a s
    | .takeEntries k => takeReadAnswered k a s

/-- The answer to a write is delivered to the block that handed it over. -/
def deliverWrite (e : WriteEntry) (accepted : Bool) (s : State) : State :=
  match e.op with
  | .replyData l i live => exchangeWriteAnswered l i live accepted s
  | .result l i live => exchangeWriteAnswered l i live accepted s
  | .progress i => progressAnswered i accepted s
  | .finalStatus i note => finalAnswered i note accepted s
  | .writeBack k => writeBackAnswered k e.agent accepted s
  | .alarmEntry k => entryAnswered k accepted s
  | .appendCount k => appendCountAnswered k accepted s
  | .overflowCount k => overflowAnswered k accepted s
  | .takeMove k => moveAnswered k accepted s
  | .takeCount k => takeCountAnswered k accepted s
  | .clearCount k => clearAnswered k accepted s
  | .powerEpoch _ => powerEpochAnswered accepted s
  | .epochs l => epochsAnswered l accepted s

/-- R166: the read on the bus is answered: the bus is free, and the answer is delivered. -/
def readEnds (r : ReadRequest) (a : ReadAnswer) (s : State) : State := deliverRead r a (s.setPort s.port.release)

/-- R163, R166: the head write is answered: it leaves the queue, waiting writes join, and the answer is delivered. -/
def writeEnds (e : WriteEntry) (accepted : Bool) (s : State) : State :=
  deliverWrite e accepted (pumpWaiting (s.setPort s.port.leaveHead))

/-- R166: memory answers the read on the bus, if it is of the kind the event names and the bytes are as many as it asked for. -/
def answerRead (isKind : ReadOp → Bool) (a : ReadAnswer) (s : State) : State :=
  match s.port.bus with
  | some (.read r) => if isKind r.op && a.hasLength r.length then readEnds r a s else s
  | _ => s

/-- R166, R167: memory answers the write on the bus, if it is of the kind the event names; a write whose block a reset has
taken away only leaves the bus. -/
def answerWrite (isKind : WriteOp → Bool) (a : WriteAnswer) (s : State) : State :=
  match s.port.bus, s.port.queue with
  | some .headWrite, e :: _ => if isKind e.op then writeEnds e (acceptedBy a) s else s
  | some (.orphan e), _ => if isKind e.op then s.setPort s.port.release else s
  | _, _ => s

/-- R166: the answer timer expires: the request on the bus ends as a reject. -/
def answerTimesOut (s : State) : State :=
  if !s.port.answerTimer.isRunning then s
  else
    match s.port.bus, s.port.queue with
    | some (.read r), _ => readEnds r .reject s
    | some .headWrite, e :: _ => writeEnds e false s
    | some (.orphan _), _ => s.setPort s.port.release
    | _, _ => s

/-! ### The kinds of answers, one for each row -/

def ReadOp.isHeader : ReadOp → Bool
  | .header => true
  | _ => false
def ReadOp.isSetup : ReadOp → Bool
  | .setup _ => true
  | _ => false
def ReadOp.isSlotRecord : ReadOp → Bool
  | .slotRecord _ => true
  | _ => false
def ReadOp.isDescriptor : ReadOp → Bool
  | .descriptor _ => true
  | _ => false
def ReadOp.isPayload : ReadOp → Bool
  | .payload _ => true
  | _ => false
def ReadOp.isStation : ReadOp → Bool
  | .station _ => true
  | _ => false
def ReadOp.isTakeEntries : ReadOp → Bool
  | .takeEntries _ => true
  | _ => false

def WriteOp.isReplyData : WriteOp → Bool
  | .replyData _ _ _ => true
  | _ => false
def WriteOp.isResult : WriteOp → Bool
  | .result _ _ _ => true
  | _ => false
def WriteOp.isProgress : WriteOp → Bool
  | .progress _ => true
  | _ => false
def WriteOp.isFinalStatus : WriteOp → Bool
  | .finalStatus _ _ => true
  | _ => false
def WriteOp.isWriteBack : WriteOp → Bool
  | .writeBack _ => true
  | _ => false
def WriteOp.isAlarmEntry : WriteOp → Bool
  | .alarmEntry _ => true
  | _ => false
/-- The count word write of an append or an overflow write share one row. -/
def WriteOp.isAlarmCount : WriteOp → Bool
  | .appendCount _ => true
  | .overflowCount _ => true
  | _ => false
def WriteOp.isTakeMove : WriteOp → Bool
  | .takeMove _ => true
  | _ => false
def WriteOp.isTakeCount : WriteOp → Bool
  | .takeCount _ => true
  | _ => false
def WriteOp.isClearCount : WriteOp → Bool
  | .clearCount _ => true
  | _ => false
def WriteOp.isPowerEpoch : WriteOp → Bool
  | .powerEpoch _ => true
  | _ => false
def WriteOp.isEpochs : WriteOp → Bool
  | .epochs _ => true
  | _ => false

end Sys2Proof.Machine
end

