-- ==== Sys2Proof/Machine/AnswerRows.lean ====
section
/-! DEFINITION. The meanings of the rows that memory brings about: the answer to each kind of read and write, and the answer
that does not come. An answer to a request that is not on the bus changes nothing (log 3). -/

namespace Sys2Proof.Machine

/-- ANSWER_TIMEOUT (R166). -/
def execAnswerTimeout (s : State) : Host.Outcome State Fault Refusal := .next (answerTimesOut s)

/-- SLOT_LOAD_ANSWER (R5, R6). -/
def execSlotLoadAnswer (a : ReadAnswer) (s : State) : Host.Outcome State Fault Refusal :=
  .next (answerRead ReadOp.isSlotRecord a s)

/-- DESCRIPTOR_READ_ANSWER (R28 to R36). -/
def execDescriptorReadAnswer (a : ReadAnswer) (s : State) : Host.Outcome State Fault Refusal :=
  .next (answerRead ReadOp.isDescriptor a s)

/-- PAYLOAD_READ_ANSWER (R68). -/
def execPayloadReadAnswer (a : ReadAnswer) (s : State) : Host.Outcome State Fault Refusal :=
  .next (answerRead ReadOp.isPayload a s)

/-- STATION_LOAD_ANSWER (R111, R112). -/
def execStationLoadAnswer (a : ReadAnswer) (s : State) : Host.Outcome State Fault Refusal :=
  .next (answerRead ReadOp.isStation a s)

/-- TAKE_READ_ANSWER (R142). -/
def execTakeReadAnswer (a : ReadAnswer) (s : State) : Host.Outcome State Fault Refusal :=
  .next (answerRead ReadOp.isTakeEntries a s)

/-- HEADER_READ_ANSWER (R155). -/
def execHeaderReadAnswer (a : ReadAnswer) (s : State) : Host.Outcome State Fault Refusal :=
  .next (answerRead ReadOp.isHeader a s)

/-- SETUP_READ_ANSWER (R125, R126). -/
def execSetupReadAnswer (a : ReadAnswer) (s : State) : Host.Outcome State Fault Refusal :=
  .next (answerRead ReadOp.isSetup a s)

/-- REPLY_DATA_WRITE_ANSWER (R39, R76). -/
def execReplyDataWriteAnswer (a : WriteAnswer) (s : State) : Host.Outcome State Fault Refusal :=
  .next (answerWrite WriteOp.isReplyData a s)

/-- RESULT_WRITE_ANSWER (R39 to R43). -/
def execResultWriteAnswer (a : WriteAnswer) (s : State) : Host.Outcome State Fault Refusal :=
  .next (answerWrite WriteOp.isResult a s)

/-- PROGRESS_WRITE_ANSWER (R18). -/
def execProgressWriteAnswer (a : WriteAnswer) (s : State) : Host.Outcome State Fault Refusal :=
  .next (answerWrite WriteOp.isProgress a s)

/-- FINAL_STATUS_WRITE_ANSWER (R19, R20). -/
def execFinalStatusWriteAnswer (a : WriteAnswer) (s : State) : Host.Outcome State Fault Refusal :=
  .next (answerWrite WriteOp.isFinalStatus a s)

/-- WRITEBACK_ANSWER (R118). -/
def execWritebackAnswer (a : WriteAnswer) (s : State) : Host.Outcome State Fault Refusal :=
  .next (answerWrite WriteOp.isWriteBack a s)

/-- ALARM_ENTRY_WRITE_ANSWER (R140). -/
def execAlarmEntryWriteAnswer (a : WriteAnswer) (s : State) : Host.Outcome State Fault Refusal :=
  .next (answerWrite WriteOp.isAlarmEntry a s)

/-- ALARM_COUNT_WRITE_ANSWER (R140, R141). -/
def execAlarmCountWriteAnswer (a : WriteAnswer) (s : State) : Host.Outcome State Fault Refusal :=
  .next (answerWrite WriteOp.isAlarmCount a s)

/-- MOVE_WRITE_ANSWER (R142). -/
def execMoveWriteAnswer (a : WriteAnswer) (s : State) : Host.Outcome State Fault Refusal :=
  .next (answerWrite WriteOp.isTakeMove a s)

/-- TAKE_COUNT_WRITE_ANSWER (R142). -/
def execTakeCountWriteAnswer (a : WriteAnswer) (s : State) : Host.Outcome State Fault Refusal :=
  .next (answerWrite WriteOp.isTakeCount a s)

/-- CLEAR_COUNT_WRITE_ANSWER (R143, R155). -/
def execClearCountWriteAnswer (a : WriteAnswer) (s : State) : Host.Outcome State Fault Refusal :=
  .next (answerWrite WriteOp.isClearCount a s)

/-- POWER_EPOCH_WRITE_ANSWER (R126, R133). -/
def execPowerEpochWriteAnswer (a : WriteAnswer) (s : State) : Host.Outcome State Fault Refusal :=
  .next (answerWrite WriteOp.isPowerEpoch a s)

/-- EPOCH_WRITE_ANSWER (R137). -/
def execEpochWriteAnswer (a : WriteAnswer) (s : State) : Host.Outcome State Fault Refusal :=
  .next (answerWrite WriteOp.isEpochs a s)

end Sys2Proof.Machine
end

