-- ==== Sys2Proof/Machine/CommandRows.lean ====
section
/-! DEFINITION. The meanings of the rows that an agent brings about: the thirteen command words and the accesses of the
register window. Each answers a next state (log 3). -/

namespace Sys2Proof.Machine

/-- OPEN (R155). -/
def execOpen (k : Agent) (s : State) : Host.Outcome State Fault Refusal :=
  .next (takeWord k (wordOf openCode 0 0 0) (openPart k) s)

/-- CLOSE (R23, R156). -/
def execClose (k : Agent) (s : State) : Host.Outcome State Fault Refusal :=
  .next (takeWord k (wordOf closeCode 0 0 0) (closePart k) s)

/-- RESET_PART (R158). -/
def execResetPart (k : Agent) (s : State) : Host.Outcome State Fault Refusal :=
  .next (takeWord k (wordOf resetCode 0 0 0) (partReset k) s)

/-- START (R4). -/
def execStart (k : Agent) (i : Slot) (s : State) : Host.Outcome State Fault Refusal :=
  .next (takeWord k (wordOf startCode 0 (slotObject i) 0) (startPlan k i) s)

/-- HALT (R14 to R16). -/
def execHalt (k : Agent) (i : Slot) (s : State) : Host.Outcome State Fault Refusal :=
  .next (takeWord k (wordOf haltCode 0 (slotObject i) 0) (haltPlan k i) s)

/-- RELEASE (R22). -/
def execRelease (k : Agent) (i : Slot) (s : State) : Host.Outcome State Fault Refusal :=
  .next (takeWord k (wordOf releaseCode 0 (slotObject i) 0) (releasePlan k i) s)

/-- FLOOR (R60, R61). -/
def execFloor (k : Agent) (l : Line) (value : Half) (s : State) : Host.Outcome State Fault Refusal :=
  .next (takeWord k (wordOf floorCode l 0 value) (setFloor k l value) s)

/-- LINE_ENABLE (R126). -/
def execLineEnable (k : Agent) (l : Line) (s : State) : Host.Outcome State Fault Refusal :=
  .next (takeWord k (wordOf lineEnableCode l 0 0) (enableLine k l) s)

/-- LINE_DISABLE (R136). -/
def execLineDisable (k : Agent) (l : Line) (s : State) : Host.Outcome State Fault Refusal :=
  .next (takeWord k (wordOf lineDisableCode l 0 0) (disableLine k l) s)

/-- LINE_RESTORE (R133). -/
def execLineRestore (k : Agent) (l : Line) (s : State) : Host.Outcome State Fault Refusal :=
  .next (takeWord k (wordOf lineRestoreCode l 0 0) (restoreLine k l) s)

/-- FLUSH (R119). -/
def execFlush (k : Agent) (l : Line) (station : Byte) (s : State) : Host.Outcome State Fault Refusal :=
  .next (takeWord k (wordOf flushCode l station 0) (flushCommand k l station) s)

/-- FLUSH_LINE (R120). -/
def execFlushLine (k : Agent) (l : Line) (s : State) : Host.Outcome State Fault Refusal :=
  .next (takeWord k (wordOf flushLineCode l 0 0) (flushLineFor k l) s)

/-- ALARMS_TAKEN (R142). -/
def execAlarmsTaken (k : Agent) (n : Half) (s : State) : Host.Outcome State Fault Refusal :=
  .next (takeWord k (wordOf alarmsTakenCode 0 0 n) (takeAlarms k n) s)

/-- WORK_BASE_WRITE (R151). -/
def execWorkBaseWrite (k : Agent) (value : Word) (s : State) : Host.Outcome State Fault Refusal :=
  .next (writeWorkBase k value s)

/-- ENABLE_WRITE (R145). -/
def execEnableWrite (k : Agent) (value : Word) (s : State) : Host.Outcome State Fault Refusal :=
  .next (writeEnable k value s)

/-- SUMMARY_READ (R144, R150). -/
def execSummaryRead (k : Agent) (first count : Nat) (s : State) : Host.Outcome State Fault Refusal :=
  .next (readSummary k first count s)

/-- FAULT_FIRST_WRITE (R148). -/
def execFaultFirstWrite (k : Agent) (value : Word) (s : State) : Host.Outcome State Fault Refusal :=
  .next (writeFaultFirst k value s)

/-- FAULT_NEXT_WRITE (R148). -/
def execFaultNextWrite (k : Agent) (value : Word) (s : State) : Host.Outcome State Fault Refusal :=
  .next (writeFaultNext k value s)

/-- REGISTER_WRITE (R150 to R152). -/
def execRegisterWrite (k : Agent) (check : Bool) (offset : BitVec 6) (count : Nat) (value : Word) (s : State) :
    Host.Outcome State Fault Refusal :=
  .next (writeAccess k check offset count value s)

/-- ACCESS_CHECK (R151). -/
def execAccessCheck (k : Agent) (offset : BitVec 6) (isRead : Bool) (s : State) : Host.Outcome State Fault Refusal :=
  .next (failAccess k offset isRead s)

end Sys2Proof.Machine
end

