-- ==== Sys2Proof/Machine/EventRows.lean ====
section
/-! DEFINITION. The meanings of the rows that no agent and no memory brings about: pins, sensors, timers, the part's own
decisions and the events on the lines. An event that the state as it stands does not allow changes nothing (log 3). -/

namespace Sys2Proof.Machine

/-! ### Pins and sensors -/

/-- RESET_PIN (R157). -/
def execResetPin (s : State) : Host.Outcome State Fault Refusal := .next (pinReset s)

/-- TRIP_ONSET (R130 to R132). -/
def execTripOnset (l : Line) (p : TripPin) (s : State) : Host.Outcome State Fault Refusal := .next (tripOnset l p s)

/-- TRIP_SOURCE_CLEARED (R130). -/
def execTripSourceCleared (l : Line) (p : TripPin) (s : State) : Host.Outcome State Fault Refusal :=
  .next (tripCleared l p s)

/-- TEMPERATURE_SAMPLE (R128): samples are taken while the line is not DISABLED. -/
def execTemperatureSample (l : Line) (degrees : Int) (s : State) : Host.Outcome State Fault Refusal :=
  .next (if (s.lineCtl l).state = .disabled then s else sample l degrees s)

/-! ### Timers -/

/-- BUDGET_WINDOW_EXPIRY (R129). -/
def execBudgetWindowExpiry (l : Line) (s : State) : Host.Outcome State Fault Refusal :=
  .next (if (s.driver l).windowTimer.isRunning then
      s.modDriver l fun d => { d with windowCount := 0, windowTimer := .running (100 * d.setup.window) }
    else s)

/-- DRAIN_EXPIRY (R134). -/
def execDrainExpiry (l : Line) (s : State) : Host.Outcome State Fault Refusal :=
  .next (if (s.driver l).drainTimer.isRunning then
      s.modDriver l fun d => { d with drainEpoch := d.drainEpoch + 1, drainTimer := .running d.setup.drainPeriod }
    else s)

/-- SETTLE_EXPIRY (R127). -/
def execSettleExpiry (l : Line) (s : State) : Host.Outcome State Fault Refusal :=
  .next (if (s.lineCtl l).state = .powering ∧ (s.driver l).settleTimer.isRunning then settleEnds l s else s)

/-- R10: the interval timer of a slot expires. -/
def intervalExpires (i : Slot) (s : State) : State :=
  match (s.plan i).state with
  | .active => s.modPlan i fun p => { p with intervalTimer := .stopped, intervalExpired := true }
  | .halting => s.modPlan i fun p => { p with intervalTimer := .stopped, intervalExpired := true }
  | .setAside => s.modPlan i fun p => { p with intervalTimer := .stopped, intervalExpired := true }
  | .waiting =>
      select (s.plan i).line (joinQueue i (s.modPlan i fun p => { p with intervalTimer := .stopped, state := .queued }))
  | _ => s

/-- INTERVAL_EXPIRY (R10). -/
def execIntervalExpiry (i : Slot) (s : State) : Host.Outcome State Fault Refusal :=
  .next (if (s.plan i).intervalTimer.isRunning then intervalExpires i s else s)

/-- AGING_EXPIRY (R58). -/
def execAgingExpiry (i : Slot) (s : State) : Host.Outcome State Fault Refusal :=
  .next (if s.agingRuns (s.plan i).line i ∧ (s.plan i).effClass < 7 then ageEntry i s else s)

/-- PAUSE_EXPIRY (R36). -/
def execPauseExpiry (l : Line) (s : State) : Host.Outcome State Fault Refusal :=
  .next (if (s.walk l).state = .pausing ∧ (s.walk l).pause.isRunning then pauseEnds l s else s)

/-- BACKOFF_EXPIRY (R74). -/
def execBackoffExpiry (l : Line) (s : State) : Host.Outcome State Fault Refusal :=
  .next (if (s.exch l).phase = .backoff ∧ (s.exch l).backoff.isRunning then
      s.modExch l fun e => { e with phase := .budgetWait, backoff := .stopped }
    else s)

/-! ### The part's own decisions -/

/-- BOUNDARY_DECISION (R55 to R57). -/
def execBoundaryDecision (l : Line) (s : State) : Host.Outcome State Fault Refusal := .next (decideBoundary l s)

/-- R69: an attempt can begin: the exchange is in BUDGET_WAIT, the line READY, and the budget admits a frame. -/
def State.canBegin (s : State) (l : Line) : Bool :=
  decide ((s.exch l).phase = .budgetWait) && decide ((s.lineCtl l).state = .ready) && (s.driver l).admits

/-- ATTEMPT_BEGIN (R69, R70, R93). -/
def execAttemptBegin (l : Line) (s : State) : Host.Outcome State Fault Refusal :=
  .next (if s.canBegin l then beginAttempt l s else s)

/-- R75: a payload byte that is to be stored stands at the head of the FIFO, and the posting queue can take it. -/
def State.byteCanBeTaken (s : State) (l : Line) : Bool :=
  decide ((s.exch l).phase = .onLine) && !(s.exch l).abandon && !(s.lineCtl l).fifo.isEmpty &&
    match s.storeAddr l with
    | some addr => s.canTake l addr
    | none => false

/-- PAYLOAD_BYTE_TAKEN (R75, R163). The characters behind the byte are taken with it as far as they can be (log 5). -/
def execPayloadByteTaken (l : Line) (s : State) : Host.Outcome State Fault Refusal :=
  .next (if s.byteCanBeTaken l then takeCharacters l s else s)

/-- REQUEST_ISSUE (R165). -/
def execRequestIssue (s : State) : Host.Outcome State Fault Refusal := .next (s.setPort s.port.issue)

/-! ### Sending -/

/-- WAKE_LEAD_SENT (R93), at any transmit position of a WAKING line (log 30). Under an abandonment the character is the last one
sent (R100, log 20). -/
def execWakeLeadSent (l : Line) (s : State) : Host.Outcome State Fault Refusal :=
  .next (if (s.lineCtl l).state ≠ .waking then s
    else if (s.exch l).abandon then enterAborting l s
    else beginFrame l s)

/-- REQUEST_FRAME_SENT (R87, R93), at any transmit position of a SENDING line (log 30). Under an abandonment the abort mark
follows (R100, log 20). -/
def execRequestFrameSent (l : Line) (s : State) : Host.Outcome State Fault Refusal :=
  .next (if (s.lineCtl l).state ≠ .sending then s
    else if (s.exch l).abandon then enterAborting l s
    else frameSent l s)

/-- SENT_CHARACTER_COMPLETE (R89, R100). At the last character of the wake lead or of the frame it changes nothing but under an
abandonment (log 30). -/
def execSentCharacterComplete (l : Line) (s : State) : Host.Outcome State Fault Refusal :=
  .next (if (s.lineCtl l).state ≠ .waking ∧ (s.lineCtl l).state ≠ .sending then s
    else if (s.exch l).abandon then enterAborting l s
    else s.modLine l fun c => { c with tx := c.tx.advance (s.exch l).wakeLead (s.frameLength l) })

/-- ABORT_EXPIRY (R83, R100). -/
def execAbortExpiry (l : Line) (s : State) : Host.Outcome State Fault Refusal :=
  .next (if (s.lineCtl l).state = .aborting ∧ (s.lineCtl l).abort.isRunning then concludeAbandon l (enterSettling l s)
    else s)

/-! ### Receiving -/

/-- REPLY_START_TIMEOUT (R94). -/
def execReplyStartTimeout (l : Line) (s : State) : Host.Outcome State Fault Refusal :=
  .next (if (s.lineCtl l).state = .awaiting ∧ (s.lineCtl l).replyStart.isRunning then
      attemptEnds l .noReply (enterSettling l s)
    else s)

/-- R90, R94, R95, R99: a start bit is confirmed; in SETTLING and READY it is activity. -/
def startBit (l : Line) (s : State) : State :=
  let s := setInput l .space s
  match (s.lineCtl l).state with
  | .awaiting =>
      s.modLine l fun c => { c with state := .receiving, replyStart := .stopped, charGap := .stopped, rx := some 1 }
  | .receiving => s.modLine l fun c => { c with charGap := .stopped }
  | .settling => enterSettling l s
  | .ready => enterSettling l s
  | _ => s

/-- START_BIT_CONFIRMED (R94, R95). -/
def execStartBitConfirmed (l : Line) (s : State) : Host.Outcome State Fault Refusal := .next (startBit l s)

/-- REPLY_CHARACTER (R90, R92, R95 to R98). -/
def execReplyCharacter (l : Line) (data : Byte) (parityBit : Bool) (stopBit : Level) (s : State) :
    Host.Outcome State Fault Refusal :=
  .next (match (s.lineCtl l).state, (s.lineCtl l).rx with
    | .receiving, some p => characterCompletes l p data parityBit stopBit s
    | _, _ => s)

/-- CHARACTER_GAP_EXPIRY (R95). -/
def execCharacterGapExpiry (l : Line) (s : State) : Host.Outcome State Fault Refusal :=
  .next (if (s.lineCtl l).state = .receiving ∧ (s.lineCtl l).charGap.isRunning then receptionFails l .truncated s else s)

/-- R99: the receive input goes to space; SETTLING and READY react to it. -/
def activity (l : Line) (s : State) : State :=
  let s := setInput l .space s
  match (s.lineCtl l).state with
  | .settling => enterSettling l s
  | .ready => enterSettling l s
  | _ => s

/-- LINE_ACTIVITY (R99). -/
def execLineActivity (l : Line) (s : State) : Host.Outcome State Fault Refusal := .next (activity l s)

/-- R99: the receive input returns to mark; the guard timer held by it counts down from the full guard gap. -/
def returnToMark (l : Line) (s : State) : State :=
  s.modLine l fun c =>
    { c with input := .mark, guard := (match c.guard with | .held gap => .running gap | g => g) }

/-- INPUT_RETURNS_TO_MARK (R99). -/
def execInputReturnsToMark (l : Line) (s : State) : Host.Outcome State Fault Refusal := .next (returnToMark l s)

/-- The guard timer runs (R99). -/
def GuardTimer.isRunning : GuardTimer → Bool
  | .running _ => true
  | _ => false

/-- GUARD_EXPIRY (R99). -/
def execGuardExpiry (l : Line) (s : State) : Host.Outcome State Fault Refusal :=
  .next (if (s.lineCtl l).state = .settling ∧ (s.lineCtl l).guard.isRunning then enterReady l s else s)

end Sys2Proof.Machine
end

