-- ==== Sys2Proof/Machine/Dispatch.lean ====
section
/-! DEFINITION. The meaning of every command and event, one arm each. -/

namespace Sys2Proof.Machine

def exec (i : Instr) (s : State) : Host.Outcome State Fault Refusal :=
  match i with
  | .openPart agent => Sys2Proof.Machine.execOpen agent s
  | .closePart agent => Sys2Proof.Machine.execClose agent s
  | .resetPart agent => Sys2Proof.Machine.execResetPart agent s
  | .start agent slot => Sys2Proof.Machine.execStart agent slot s
  | .halt agent slot => Sys2Proof.Machine.execHalt agent slot s
  | .release agent slot => Sys2Proof.Machine.execRelease agent slot s
  | .floor agent line value => Sys2Proof.Machine.execFloor agent line value s
  | .lineEnable agent line => Sys2Proof.Machine.execLineEnable agent line s
  | .lineDisable agent line => Sys2Proof.Machine.execLineDisable agent line s
  | .lineRestore agent line => Sys2Proof.Machine.execLineRestore agent line s
  | .flush agent line station => Sys2Proof.Machine.execFlush agent line station s
  | .flushLine agent line => Sys2Proof.Machine.execFlushLine agent line s
  | .alarmsTaken agent n => Sys2Proof.Machine.execAlarmsTaken agent n s
  | .workBaseWrite agent value => Sys2Proof.Machine.execWorkBaseWrite agent value s
  | .enableWrite agent value => Sys2Proof.Machine.execEnableWrite agent value s
  | .summaryRead agent first count => Sys2Proof.Machine.execSummaryRead agent first count s
  | .faultFirstWrite agent value => Sys2Proof.Machine.execFaultFirstWrite agent value s
  | .faultNextWrite agent value => Sys2Proof.Machine.execFaultNextWrite agent value s
  | .registerWrite agent check offset count value => Sys2Proof.Machine.execRegisterWrite agent check offset count value s
  | .accessCheck agent offset isRead => Sys2Proof.Machine.execAccessCheck agent offset isRead s
  | .resetPin => Sys2Proof.Machine.execResetPin s
  | .tripOnset line source => Sys2Proof.Machine.execTripOnset line source s
  | .tripSourceCleared line source => Sys2Proof.Machine.execTripSourceCleared line source s
  | .temperatureSample line degrees => Sys2Proof.Machine.execTemperatureSample line degrees s
  | .budgetWindowExpiry line => Sys2Proof.Machine.execBudgetWindowExpiry line s
  | .drainExpiry line => Sys2Proof.Machine.execDrainExpiry line s
  | .settleExpiry line => Sys2Proof.Machine.execSettleExpiry line s
  | .intervalExpiry slot => Sys2Proof.Machine.execIntervalExpiry slot s
  | .agingExpiry slot => Sys2Proof.Machine.execAgingExpiry slot s
  | .pauseExpiry line => Sys2Proof.Machine.execPauseExpiry line s
  | .backoffExpiry line => Sys2Proof.Machine.execBackoffExpiry line s
  | .boundaryDecision line => Sys2Proof.Machine.execBoundaryDecision line s
  | .attemptBegin line => Sys2Proof.Machine.execAttemptBegin line s
  | .wakeLeadSent line => Sys2Proof.Machine.execWakeLeadSent line s
  | .requestFrameSent line => Sys2Proof.Machine.execRequestFrameSent line s
  | .replyStartTimeout line => Sys2Proof.Machine.execReplyStartTimeout line s
  | .replyCharacter line data parityBit stopBit => Sys2Proof.Machine.execReplyCharacter line data parityBit stopBit s
  | .characterGapExpiry line => Sys2Proof.Machine.execCharacterGapExpiry line s
  | .payloadByteTaken line => Sys2Proof.Machine.execPayloadByteTaken line s
  | .lineActivity line => Sys2Proof.Machine.execLineActivity line s
  | .guardExpiry line => Sys2Proof.Machine.execGuardExpiry line s
  | .abortExpiry line => Sys2Proof.Machine.execAbortExpiry line s
  | .requestIssue => Sys2Proof.Machine.execRequestIssue s
  | .answerTimeout => Sys2Proof.Machine.execAnswerTimeout s
  | .slotLoadAnswer answer => Sys2Proof.Machine.execSlotLoadAnswer answer s
  | .descriptorReadAnswer answer => Sys2Proof.Machine.execDescriptorReadAnswer answer s
  | .payloadReadAnswer answer => Sys2Proof.Machine.execPayloadReadAnswer answer s
  | .stationLoadAnswer answer => Sys2Proof.Machine.execStationLoadAnswer answer s
  | .replyDataWriteAnswer answer => Sys2Proof.Machine.execReplyDataWriteAnswer answer s
  | .resultWriteAnswer answer => Sys2Proof.Machine.execResultWriteAnswer answer s
  | .progressWriteAnswer answer => Sys2Proof.Machine.execProgressWriteAnswer answer s
  | .finalStatusWriteAnswer answer => Sys2Proof.Machine.execFinalStatusWriteAnswer answer s
  | .writebackAnswer answer => Sys2Proof.Machine.execWritebackAnswer answer s
  | .alarmEntryWriteAnswer answer => Sys2Proof.Machine.execAlarmEntryWriteAnswer answer s
  | .alarmCountWriteAnswer answer => Sys2Proof.Machine.execAlarmCountWriteAnswer answer s
  | .takeReadAnswer answer => Sys2Proof.Machine.execTakeReadAnswer answer s
  | .moveWriteAnswer answer => Sys2Proof.Machine.execMoveWriteAnswer answer s
  | .takeCountWriteAnswer answer => Sys2Proof.Machine.execTakeCountWriteAnswer answer s
  | .clearCountWriteAnswer answer => Sys2Proof.Machine.execClearCountWriteAnswer answer s
  | .headerReadAnswer answer => Sys2Proof.Machine.execHeaderReadAnswer answer s
  | .setupReadAnswer answer => Sys2Proof.Machine.execSetupReadAnswer answer s
  | .powerEpochWriteAnswer answer => Sys2Proof.Machine.execPowerEpochWriteAnswer answer s
  | .epochWriteAnswer answer => Sys2Proof.Machine.execEpochWriteAnswer answer s
  | .startBitConfirmed line => Sys2Proof.Machine.execStartBitConfirmed line s
  | .sentCharacterComplete line => Sys2Proof.Machine.execSentCharacterComplete line s
  | .inputReturnsToMark line => Sys2Proof.Machine.execInputReturnsToMark line s

end Sys2Proof.Machine
end

