-- ==== Sys2Proof/Safety.lean ====
section
/-! DEFINITION. What counts as a safe part, in the terms claims use: the states that can be reached, the laws that every
step keeps, and the terms in which the statements say what one command does. -/

namespace Sys2Proof.Machine

/-- The states the part can reach from reset, whatever commands and events are put in its queue. -/
inductive Reachable : State → Prop where
  | reset : Reachable State.reset
  | command {s : State} (q : List Instr) : Reachable s → Reachable (s.setPending q)
  | step {s t : State} : Reachable s → step s = .next t → Reachable t

/-- The states of a plan that stands on its line: started, and not yet ended (R13). -/
def PlanState.isLive : PlanState → Bool
  | .queued => true
  | .active => true
  | .setAside => true
  | .waiting => true
  | .halting => true
  | _ => false

/-- R20: a slot's bit is set in an agent's PENDING mask exactly when that slot's plan is ENDED and was started by that agent,
and the backlog count equals the number of ENDED plans. -/
def PendingLaw (s : State) : Prop :=
  (∀ (k : Agent) (i : Slot), (s.mask k).getLsbD i.val = true ↔ (s.plan i).state = .ended ∧ (s.plan i).agent = k) ∧
    s.backlog.count = s.endedSlots.length

/-- R155 check 7: the marks of a header that passed its checks. -/
abbrev legalMarks (low high : Nat) : Prop := 1 ≤ low ∧ low < high ∧ high ≤ 32

/-- R21: while the part is OPEN, the hold is set whenever the count is at or above the high mark and clear whenever it is at or
below the low mark; while it is CLOSED, the hold is clear. -/
def HoldLaw (s : State) : Prop :=
  (s.unit.partState = .opened →
    legalMarks s.backlog.lowMark s.backlog.highMark ∧
      (s.backlog.highMark ≤ s.backlog.count → s.backlog.hold = true) ∧
      (s.backlog.count ≤ s.backlog.lowMark → s.backlog.hold = false)) ∧
    (s.unit.partState = .closed → s.backlog.hold = false)

/-- An OPEN in progress has found the part CLOSED, and a header it holds has passed its checks (R155). -/
def OpenLaw (s : State) : Prop :=
  (s.unit.openInProgress = true → s.unit.partState = .closed) ∧
    ∀ h, s.unit.openHeader = some h → legalMarks h.lowMark h.highMark

/-- R5, R13, R136: a plan that stands on its line stands on a line that is not DISABLED. -/
def LiveLaw (s : State) : Prop :=
  ∀ i : Slot, (s.plan i).state.isLive = true → (s.lineCtl (s.plan i).line).state ≠ .disabled

/-- R156, but for the cache: while the part is CLOSED every line is DISABLED and every plan context is IDLE. -/
def ClosedLaw (s : State) : Prop :=
  s.unit.partState = .closed → (∀ l : Line, (s.lineCtl l).state = .disabled) ∧ ∀ i : Slot, (s.plan i).state = .idle

/-- R139: an agent's alarm list and its waiting alarms never hold more than 16 alarms together. -/
def AlarmRoomLaw (s : State) : Prop := ∀ k : Agent, (s.alarm k).count + (s.alarm k).waiting.length ≤ alarmCapacity

/-- R163: the posting queue holds at most 16 entries. -/
def QueueLaw (s : State) : Prop := s.port.queue.length ≤ queueCapacity

/-- R97: the receive FIFO of every line holds at most 32 characters. -/
def FifoLaw (s : State) : Prop := ∀ l : Line, (s.lineCtl l).fifo.length ≤ fifoCapacity

/-- R59: a plan's effective class is never below its base class and never above 7. -/
def ClassLaw (s : State) : Prop :=
  ∀ i : Slot, (s.plan i).baseClass ≤ (s.plan i).effClass ∧ (s.plan i).effClass ≤ 7

/-- R149, R151: WORK_BASE is a multiple of 256. -/
def WorkBaseLaw (s : State) : Prop := s.unit.workBase &&& 0xFF = 0

/-- R72: the bucket of every copy in the cache is at most 15. -/
def BucketLaw (s : State) : Prop := ∀ n : Fin 64, (s.way n).copy.bucket ≤ 15

/-! ### The terms of the statements about one command -/

/-- R154: a word with this code, written by agent `k`, is taken and passes every check. -/
abbrev State.Accepts (s : State) (k : Agent) (c : BitVec 4) : Prop :=
  (s.bank k).command = none ∧ isKnownCode c = true ∧
    (c = openCode ∨ c = resetCode ∨ (s.unit.partState = .opened ∧ s.unit.openInProgress = false)) ∧
    (isAdminCode c = true → k = 0)

/-- R153: the final verdict of a command of code `c` stands in agent `k`'s bank, and no command of the agent is in progress. -/
def State.posted (s : State) (k : Agent) (c : BitVec 4) (code : VerdictCode) (value : Half) : State :=
  s.setBank k { s.bank k with
    command := none, verdict := { code := code, value := value, command := c }, flushWait := .none }

/-- R152: the command word is agent `k`'s command in progress, and the verdict reads PENDING with value 0. -/
def State.inProgress (s : State) (k : Agent) (w : CommandWord) : State :=
  s.setBank k { s.bank k with command := some w, verdict := { code := .pending, value := 0, command := w.code } }

/-- R150, R152: the agent and the command word of an event that writes an agent's COMMAND register. -/
def commandOf : Instr → Option (Agent × CommandWord)
  | .openPart k => some (k, wordOf openCode 0 0 0)
  | .closePart k => some (k, wordOf closeCode 0 0 0)
  | .resetPart k => some (k, wordOf resetCode 0 0 0)
  | .start k i => some (k, wordOf startCode 0 (slotObject i) 0)
  | .halt k i => some (k, wordOf haltCode 0 (slotObject i) 0)
  | .release k i => some (k, wordOf releaseCode 0 (slotObject i) 0)
  | .floor k l v => some (k, wordOf floorCode l 0 v)
  | .lineEnable k l => some (k, wordOf lineEnableCode l 0 0)
  | .lineDisable k l => some (k, wordOf lineDisableCode l 0 0)
  | .lineRestore k l => some (k, wordOf lineRestoreCode l 0 0)
  | .flush k l a => some (k, wordOf flushCode l a 0)
  | .flushLine k l => some (k, wordOf flushLineCode l 0 0)
  | .alarmsTaken k n => some (k, wordOf alarmsTakenCode 0 0 n)
  | .registerWrite k check offset count value =>
      if check = checkBit k ∧ offset = 0x14 ∧ count = 4 then some (k, commandWordOf value) else none
  | _ => none

/-- The read `r` is on the bus, and its block still takes the answer (R166, R167). -/
abbrev State.Reading (s : State) (r : ReadRequest) : Prop := s.port.bus = some (.read r) ∧ r.live = true

/-- The state with the read's answer taken from the bus (R166). -/
def State.afterRead (s : State) : State := s.setPort s.port.release

/-- The write `e` is on the bus: it is the head entry of the posting queue (R163). -/
abbrev State.Writing (s : State) (e : WriteEntry) : Prop := s.port.bus = some .headWrite ∧ s.port.queue.head? = some e

/-- The state with the head entry gone and the writes that wait joined, as far as there is room (R163). -/
def State.afterWrite (s : State) : State := pumpWaiting (s.setPort s.port.leaveHead)

/-- A rejected write is recorded in the Fault Log (R146, R147). -/
def State.logReject (s : State) (a : WriteAnswer) (kind : FaultKind) (l : Line) (place : Byte) (k : Agent) : State :=
  match a with
  | .accept => s
  | .reject => s.setLog (s.log.record kind l place k)

end Sys2Proof.Machine
end

