-- ==== Sys2Proof/Certificates/Slice0/Obligations.lean ====
section
/-! DEFINITION. The statements for the provers, one definition each; notes on what each rests on are in OBLIGATIONS.json. -/

open Sys2Proof Sys2Proof.Machine

/-! ### Steps, reset and command words -/

/-- A step runs the command at the front of the queue on the state with the queue's rest; on an empty queue the part idles,
which is the model's choice (log 15). -/
def Obligations.StepRunsFrontCommand : Prop :=
  (∀ (c : Instr) (rest : List Instr) (s : State), s.pending = c :: rest → step s = exec c (s.setPending rest)) ∧
    ∀ s : State, s.pending = [] → step s = .next s

/-- R157 and the rules it names: what every block holds at reset. The empty command queue is the model's own. -/
def Obligations.ResetState : Prop :=
  let s := State.reset
  s.pending = [] ∧ s.unit.partState = .closed ∧ s.unit.workBase = 0 ∧ s.unit.openInProgress = false ∧
    (∀ k : Agent,
      (s.bank k).command = none ∧ (s.bank k).verdict = { code := .none, value := 0, command := 0 } ∧
        (s.bank k).overrun = false ∧ (s.bank k).enable = 0 ∧ s.mask k = 0 ∧ s.attention k = false ∧
        (s.alarm k).count = 0 ∧ (s.alarm k).overflow = false ∧ (s.alarm k).waiting = [] ∧ (s.alarm k).op = .none ∧
        (s.alarm k).overflowOwed = false ∧ (s.alarm k).note = false ∧ s.port.window k = { base := 0, limit := 0 }) ∧
    (∀ i : Slot, s.plan i = Plan.reset ∧ (s.plan i).state = .idle) ∧ s.backlog.count = 0 ∧ s.backlog.hold = false ∧
    s.backlog.lowMark = 0 ∧ s.backlog.highMark = 0 ∧
    (∀ l : Line,
      (s.lineCtl l).state = .disabled ∧ (s.lineCtl l).fifo = [] ∧ s.driverLevel l = .floats ∧
        (s.sched l).holder = none ∧ (s.sched l).queue = [] ∧ (s.sched l).floor = 0 ∧ (s.sched l).stampCounter = 0 ∧
        (s.walk l).state = .noHolder ∧ (s.walk l).group = [] ∧ (s.exch l).phase = .none ∧ (s.driver l).zone = .cool ∧
        (s.driver l).windowCount = 0 ∧ (s.driver l).drainEpoch = 0 ∧ (s.driver l).powerEpoch = 0 ∧
        (s.driver l).disable = .none) ∧
    (∀ n : Fin 64, (s.way n).condition = .free) ∧ s.cache.writeBacks = [] ∧
    (∀ i : SetIndex, s.cache.stalls.get i = [] ∧ s.cache.lru.get i = false) ∧
    s.log.valid = false ∧ s.log.kind = .statusLost ∧ s.log.line = 0 ∧ s.log.place = 0 ∧ s.log.agent = 0 ∧
    s.log.nextMask = 0 ∧ s.log.nextCount = 0 ∧ s.port.queue = [] ∧ s.port.waiting = [] ∧ s.port.reads = [] ∧
    s.port.bus = none ∧ s.port.rotation = .commandUnit ∧ s.port.preference = .reads

/-- R152, R154: a command word written while the agent's command is in progress is dropped: it sets OVERRUN and changes nothing
else, but for RESET_PART from agent 0. A word that is taken gets the final verdict of the first of the three checks it fails, and
nothing else changes. That an OPEN or a RESET_PART of agents 1 to 3 gets NOT_PERMITTED in a CLOSED part too follows R154; for a
word taken after RESET_PART the last paragraph of R158 says NOT_OPEN, and R154 is the model's choice there (log 35). -/
def Obligations.CommandWordChecked : Prop :=
  ∀ (c : Instr) (k : Agent) (w : CommandWord) (s : State), commandOf c = some (k, w) →
    ((s.bank k).command ≠ none → ¬(k = 0 ∧ w.code = resetCode) →
      exec c s = .next (s.setBank k { s.bank k with overrun := true })) ∧
    ((s.bank k).command = none →
      (¬(1 ≤ w.code.toNat ∧ w.code.toNat ≤ 13) → exec c s = .next (s.posted k w.code .invalidArgument 0)) ∧
      (1 ≤ w.code.toNat ∧ w.code.toNat ≤ 13 → w.code ≠ openCode → w.code ≠ resetCode →
        ¬(s.unit.partState = .opened ∧ s.unit.openInProgress = false) →
        exec c s = .next (s.posted k w.code .notOpen 0)) ∧
      ((w.code = openCode ∨ w.code = resetCode ∨ (s.unit.partState = .opened ∧ s.unit.openInProgress = false)) →
        w.code ∈ [openCode, closeCode, resetCode, lineEnableCode, lineDisableCode, lineRestoreCode] → k ≠ 0 →
        exec c s = .next (s.posted k w.code .notPermitted 0)))

/-- R150 to R152: what a register write reaches. A write of fewer than 4 bytes is ignored; a 32-bit write acts as the register
at its offset says, a command word as the command it spells; a write whose check bit disagrees is a failed access, which is
ignored and logged. The place logged for it, the offset of the register it reaches, is the model's choice (log 19). -/
def Obligations.RegisterWriteForms : Prop :=
  ∀ (k : Agent) (offset : BitVec 6) (count : Nat) (value : Word) (s : State),
    (count ≠ 4 → exec (.registerWrite k (checkBit k) offset count value) s = .next s) ∧
    exec (.registerWrite k (checkBit k) 0x08 4 value) s = exec (.workBaseWrite k value) s ∧
    exec (.registerWrite k (checkBit k) 0x0C 4 value) s = exec (.faultFirstWrite k value) s ∧
    exec (.registerWrite k (checkBit k) 0x10 4 value) s = exec (.faultNextWrite k value) s ∧
    exec (.registerWrite k (checkBit k) 0x20 4 value) s = exec (.enableWrite k value) s ∧
    (∀ (c : Instr) (w : CommandWord), commandOf c = some (k, w) → commandWordOf value = w →
      exec (.registerWrite k (checkBit k) 0x14 4 value) s = exec c s) ∧
    (offset ∉ [0x08, 0x0C, 0x10, 0x14, 0x20] → exec (.registerWrite k (checkBit k) offset 4 value) s = .next s) ∧
    (∀ check : Bool, check ≠ checkBit k →
      exec (.registerWrite k check offset count value) s =
        .next (s.setLog (s.log.record .accessCheck 0 (BitVec.ofNat 8 (offset.toNat / 4 * 4)) k))) ∧
    exec (.accessCheck k offset false) s =
      .next (s.setLog (s.log.record .accessCheck 0 (BitVec.ofNat 8 (offset.toNat / 4 * 4)) k)) ∧
    exec (.accessCheck k offset true) s =
      .next ((s.setLog (s.log.record .accessCheck 0 (BitVec.ofNat 8 (offset.toNat / 4 * 4)) k)).setReadData 0)

/-! ### OPEN, CLOSE and the resets -/

/-- R155: OPEN is refused while the part is OPEN; while it is CLOSED it asks for the 64-byte header at WORK_BASE. -/
def Obligations.OpenAsksForHeader : Prop :=
  ∀ s : State, s.Accepts 0 openCode →
    (s.unit.partState = .opened → exec (.openPart 0) s = .next (s.posted 0 openCode .wrongState 0)) ∧
    (s.unit.partState = .closed →
      exec (.openPart 0) s =
        .next (askRead
          { addr := s.unit.workBase, length := 64, agent := 0, requester := .commandUnit, op := .header, live := true }
          ((s.setUnit { s.unit with openInProgress := true }).inProgress 0 (wordOf openCode 0 0 0))))

/-- R155, R143: the checks of the header, in their order; the answer to OPEN's header read refuses the OPEN, or has the four alarm
lists cleared: a list that is free at once, with its count word write, and one with an operation or a take in progress when that
has ended (AlarmsAppended states that step), with its waiting alarms gone but for one whose append goes on. The free lists hand
their writes over in any order (the model's free choice, log 4). -/
def Obligations.HeaderAnswered : Prop :=
  (checkHeader .reject = .error (.loadFault, 0) ∧
    ∀ data : List Byte,
      let h := headerOf data
      let legal := fun k : Agent => (h.windows.get k).base.toNat % 32 = 0 ∧ (h.windows.get k).limit.toNat % 32 = 0 ∧
        (h.windows.get k).base.toNat < (h.windows.get k).limit.toNat
      (wordAt data 0 ≠ 1 → checkHeader (.accept data) = .error (.invalidSetup, 2)) ∧
      (∀ k : Agent, wordAt data 0 = 1 → (∀ j : Agent, j.val < k.val → legal j) → ¬legal k →
        checkHeader (.accept data) = .error (.invalidSetup, BitVec.ofNat 16 (3 + k.val))) ∧
      (wordAt data 0 = 1 → (∀ j : Agent, legal j) → ¬legalMarks h.lowMark h.highMark →
        checkHeader (.accept data) = .error (.invalidSetup, 7)) ∧
      (wordAt data 0 = 1 → (∀ j : Agent, legal j) → legalMarks h.lowMark h.highMark → 65535 < h.agingPeriod →
        checkHeader (.accept data) = .error (.invalidSetup, 8)) ∧
      (wordAt data 0 = 1 → (∀ j : Agent, legal j) → legalMarks h.lowMark h.highMark → h.agingPeriod ≤ 65535 →
        checkHeader (.accept data) = .ok h)) ∧
  ∀ (s : State) (r : ReadRequest) (a : ReadAnswer), s.Reading r → r.op = .header → a.hasLength r.length = true →
    s.unit.openInProgress = true →
    (∀ v : VerdictCode × Half, checkHeader a = .error v →
      exec (.headerReadAnswer a) s =
        .next (postVerdict 0 v.1 v.2 (s.afterRead.setUnit { s.unit with openInProgress := false }))) ∧
    ∀ h : Header, checkHeader a = .ok h →
      let isFree := fun k : Agent => (s.alarm k).op = .none ∧ (s.alarm k).take = none
      let clearing := fun k : Agent => ({
        addr := s.unit.workBase + 0x940 + BitVec.ofNat 32 (0x50 * k.val), data := [0, 0, 0, 0], agent := k,
        writer := .alarmUnit, op := .clearCount k } : WriteEntry)
      ∃ t : State, exec (.headerReadAnswer a) s = .next t ∧
        t.unit = { s.unit with openHeader := some h, openRejected := false } ∧
        (∀ k : Agent, isFree k →
          t.alarm k = { s.alarm k with
            count := 0, overflow := false, waiting := [], op := .clearing, overflowOwed := false, clearOwed := false }) ∧
        (∀ k : Agent, ¬isFree k →
          t.alarm k = { s.alarm k with
            waiting := if (s.alarm k).op = .appending then (s.alarm k).waiting.take 1 else [],
            overflowOwed := false, clearOwed := true }) ∧
        (∃ order : List Agent, order.Nodup ∧ (∀ k : Agent, k ∈ order ↔ isFree k) ∧
          t.port = order.foldl (fun p k => p.handOver (clearing k)) s.afterRead.port) ∧
        t.plans = s.plans ∧ t.backlog = s.backlog ∧ t.scheds = s.scheds ∧ t.walks = s.walks ∧ t.exchs = s.exchs ∧
        t.lines = s.lines ∧ t.drivers = s.drivers ∧ t.cache = s.cache ∧ t.log = s.log ∧ t.pending = s.pending

/-- R155, R143: the answer to a clearing write makes its list free. While another list has not been cleared and answered the OPEN
waits for it; with the last one the OPEN completes in one step: windows, marks, aging period, part state and verdict. A rejected
write is logged and shows in the verdict's value. -/
def Obligations.OpenCompletes : Prop :=
  ∀ (s : State) (e : WriteEntry) (k : Agent) (h : Header) (a : WriteAnswer), s.Writing e → e.op = .clearCount k →
    let u := s.afterWrite
    u.unit.openInProgress = true → u.unit.openHeader = some h → (u.alarm k).op = .clearing → (u.alarm k).take = none →
    (u.alarm k).clearOwed = false → (u.alarm k).waiting = [] → (u.alarm k).overflowOwed = false →
    ((∃ j : Agent, j ≠ k ∧ ((u.alarm j).clearOwed = true ∨ (u.alarm j).op = .clearing)) →
      exec (.clearCountWriteAnswer a) s =
        .next (((u.logReject a .alarmLost 0 0 k).setAlarm k { u.alarm k with op := .none }).setUnit
          { u.unit with openRejected := u.unit.openRejected || decide (a = .reject) })) ∧
    ((∀ j : Agent, j ≠ k → (u.alarm j).clearOwed = false ∧ (u.alarm j).op ≠ .clearing) →
      ∃ t : State, exec (.clearCountWriteAnswer a) s = .next t ∧
        t.unit.partState = .opened ∧ t.unit.openInProgress = false ∧ t.unit.workBase = u.unit.workBase ∧
        t.port = { u.port with windows := h.windows } ∧
        t.backlog = { u.backlog with lowMark := h.lowMark, highMark := h.highMark, hold := false } ∧
        (∀ l : Line, t.sched l = { u.sched l with agingPeriod := h.agingPeriod }) ∧
        (t.bank 0).command = none ∧
        (t.bank 0).verdict = { code := .done, value := if u.unit.openRejected ∨ a = .reject then 1 else 0,
                               command := (u.bank 0).commandCode } ∧
        (∀ j : Agent, j ≠ 0 → t.bank j = u.bank j) ∧ t.alarm k = { u.alarm k with op := .none } ∧
        (∀ j : Agent, j ≠ k → t.alarm j = u.alarm j) ∧ t.log = (u.logReject a .alarmLost 0 0 k).log ∧
        t.plans = u.plans ∧ t.walks = u.walks ∧ t.exchs = u.exchs ∧ t.lines = u.lines ∧ t.drivers = u.drivers ∧
        t.cache = u.cache)

/-- R23, R156: CLOSE is refused while a line is not DISABLED or a plan is LOADING or ENDING. Otherwise every ENDED plan becomes
IDLE, the masks, the count and the hold are cleared, the part becomes CLOSED and the verdict counts the plans released. -/
def Obligations.CloseReleasesEndedPlans : Prop :=
  ∀ s : State, s.Accepts 0 closeCode →
    let busy := (∃ l : Line, (s.lineCtl l).state ≠ .disabled) ∨
      ∃ i : Slot, (s.plan i).state = .loading ∨ (s.plan i).state = .ending
    (busy → exec (.closePart 0) s = .next (s.posted 0 closeCode .busy 0)) ∧
    (¬busy →
      exec (.closePart 0) s =
        .next (((({ s with plans := s.plans.map fun p => if p.state = .ended then Plan.reset else p } : State).setBacklog
          { s.backlog with count := 0, hold := false, masks := Vector.replicate 4 0 }).setUnit
            { s.unit with partState := .closed }).posted 0 closeCode .done (BitVec.ofNat 16 s.endedSlots.length)))

/-- R157, and the values each block takes: the reset pin. The levels of the input pins stay (the model's choice, log 14); the
request on the bus stays there for no block (R167). -/
def Obligations.ResetPinClears : Prop :=
  ∀ s : State, ∃ t : State, exec .resetPin s = .next t ∧
    t.pending = s.pending ∧ t.unit = CommandUnit.reset ∧ t.log = FaultLog.reset ∧
    t.plans = Vector.replicate 32 Plan.reset ∧ t.backlog = Backlog.reset ∧
    (∀ l : Line, t.sched l = Scheduler.reset ∧ t.walk l = Walk.reset ∧ t.exch l = Exchange.reset ∧
      t.lineCtl l = { LineController.reset with input := (s.lineCtl l).input } ∧
      t.driver l = { Driver.reset with
        pinOvercurrent := (s.driver l).pinOvercurrent, pinTripInput := (s.driver l).pinTripInput } ∧
      t.driverLevel l = .floats) ∧
    t.cache = Cache.reset ∧ (∀ k : Agent, t.alarm k = AlarmList.reset ∧ t.attention k = false) ∧ t.port.queue = [] ∧
    t.port.waiting = [] ∧ t.port.reads = [] ∧ t.port.windows = Port.reset.windows ∧
    t.port.rotation = .commandUnit ∧ t.port.preference = .reads ∧ t.port.bus = s.port.orphanBus

/-- R158: RESET_PART of agent 0, whatever its bank holds: commands in progress are abandoned, the Fault Log and WORK_BASE stay,
every other block is reset, and agent 0's verdict is DONE. The levels of the input pins stay (the model's choice, log 14). -/
def Obligations.ResetPartClears : Prop :=
  ∀ s : State, ∃ t : State, exec (.resetPart 0) s = .next t ∧
    t.pending = s.pending ∧ t.log = s.log ∧ t.unit.workBase = s.unit.workBase ∧ t.unit.partState = .closed ∧
    t.unit.openInProgress = false ∧ t.unit.openHeader = none ∧ t.unit.openRejected = false ∧
    t.bank 0 = { Bank.reset with verdict := { code := .done, value := 0, command := resetCode } } ∧
    (∀ k : Agent, k ≠ 0 →
      t.bank k = { Bank.reset with
        verdict := match (s.bank k).command with
          | some w => { code := .abandoned, value := 0, command := w.code }
          | none => (s.bank k).verdict }) ∧
    t.plans = Vector.replicate 32 Plan.reset ∧ t.backlog = Backlog.reset ∧
    (∀ l : Line, t.sched l = Scheduler.reset ∧ t.walk l = Walk.reset ∧ t.exch l = Exchange.reset ∧
      t.lineCtl l = { LineController.reset with input := (s.lineCtl l).input } ∧
      t.driver l = { Driver.reset with
        pinOvercurrent := (s.driver l).pinOvercurrent, pinTripInput := (s.driver l).pinTripInput }) ∧
    t.cache = Cache.reset ∧ (∀ k : Agent, t.alarm k = AlarmList.reset ∧ t.attention k = false) ∧ t.port.queue = [] ∧
    t.port.waiting = [] ∧ t.port.reads = [] ∧ t.port.windows = Port.reset.windows ∧
    t.port.rotation = .commandUnit ∧ t.port.preference = .reads ∧ t.port.bus = s.port.orphanBus

/-! ### Plans -/

/-- R4: START of an IDLE slot makes it LOADING for the commanding agent, asks for the slot record and reads PENDING; START of
any other slot is refused. -/
def Obligations.StartLoadsSlotRecord : Prop :=
  ∀ (s : State) (k : Agent) (i : Slot), s.Accepts k startCode →
    ((s.plan i).state = .idle →
      exec (.start k i) s =
        .next (askRead
          { addr := s.unit.workBase + 0x140 + BitVec.ofNat 32 (0x40 * i.val), length := 64, agent := k,
            requester := .planUnit, op := .slotRecord i, live := true }
          ((s.setPlan i { s.plan i with state := .loading, agent := k }).inProgress k
            (wordOf startCode 0 (slotObject i) 0)))) ∧
    ((s.plan i).state ≠ .idle → exec (.start k i) s = .next (s.posted k startCode .slotInUse 0))

/-- R5, R6: the answer to START's read. The first check of the slot record that fails returns the slot to IDLE and gives the
verdict; nothing else changes. An accepted plan is loaded from the record, joins its line's run queue as QUEUED, and the verdict
is DONE; a selection of its line follows. -/
def Obligations.SlotRecordAnswered : Prop :=
  (∀ (s : State) (r : ReadRequest) (i : Slot) (a : ReadAnswer), s.Reading r → r.op = .slotRecord i →
    a.hasLength r.length = true → (s.plan i).state = .loading →
    let k := (s.plan i).agent
    let refuse := fun v : VerdictCode => exec (.slotLoadAnswer a) s =
      .next (postVerdict k v 0 (s.afterRead.setPlan i Plan.reset))
    (a = .reject → refuse .loadFault) ∧
    ∀ data : List Byte, a = .accept data →
      let request := (byteAt data 0).toNat ≤ 3 ∧ (byteAt data 1).toNat ≤ 7 ∧ (wordAt data 4).toNat ≤ 86400000
      let lineUp := ∀ l : Line, l.val = (byteAt data 0).toNat → (s.lineCtl l).state ≠ .disabled
      let first := (wordAt data 8).toNat
      let inside := (s.port.window k).base.toNat ≤ first ∧ first + 32 ≤ (s.port.window k).limit.toNat
      (¬request → refuse .invalidArgument) ∧
      (request → ¬lineUp → refuse .lineNotReady) ∧
      (request → lineUp → first % 32 ≠ 0 → refuse .window) ∧
      (request → lineUp → first % 32 = 0 → ¬inside → refuse .window)) ∧
  ∀ (s : State) (r : ReadRequest) (i : Slot) (data : List Byte) (l : Line), s.Reading r → r.op = .slotRecord i →
    data.length = r.length → (s.plan i).state = .loading → (byteAt data 0).toNat = l.val → (byteAt data 1).toNat ≤ 7 →
    (wordAt data 4).toNat ≤ 86400000 → (s.lineCtl l).state ≠ .disabled → (wordAt data 8).toNat % 32 = 0 →
    let k := (s.plan i).agent
    (s.port.window k).base.toNat ≤ (wordAt data 8).toNat →
    (wordAt data 8).toNat + 32 ≤ (s.port.window k).limit.toNat →
    exec (.slotLoadAnswer (.accept data)) s =
      .next (select l (postVerdict k .done 0 (joinQueue i (s.afterRead.setPlan i
        { state := .queued, agent := k, line := l, baseClass := (byteAt data 1).toNat,
          effClass := (byteAt data 1).toNat, noteRuns := (byteAt data 2).getLsbD 0, interval := wordAt data 4,
          firstAddr := wordAt data 8, label := wordAt data 12, currentAddr := wordAt data 8, completed := 0,
          runCount := 0, overruns := 0, lastRun := .none, notePosition := 0, endCode := .none, faultDetail := .none,
          detailLine := false, labelEcho := wordAt data 12, intervalTimer := .stopped, intervalExpired := false,
          outstanding := 0, progressOwed := false, savedAfterJump := false, noteFolded := false }))))

/-- R14: the verdicts of HALT, in their order, and what HALT does to a plan that does not hold its line. -/
def Obligations.HaltVerdicts : Prop :=
  ∀ (s : State) (k : Agent) (i : Slot), s.Accepts k haltCode →
    let p := s.plan i
    let permitted := k = p.agent ∨ k = 0
    (p.state = .idle → exec (.halt k i) s = .next (s.posted k haltCode .noPlan 0)) ∧
    (p.state ≠ .idle → ¬permitted → exec (.halt k i) s = .next (s.posted k haltCode .notPermitted 0)) ∧
    (permitted →
      (p.state = .loading → exec (.halt k i) s = .next (s.posted k haltCode .busy 0)) ∧
      (p.state = .queued ∨ p.state = .setAside ∨ p.state = .waiting →
        exec (.halt k i) s =
          .next (endPlan i .halted .none (leaveQueue p.line i (s.posted k haltCode .done 0)))) ∧
      (p.state = .halting → exec (.halt k i) s = .next (s.posted k haltCode .done 1)) ∧
      (p.state = .ending ∨ p.state = .ended → exec (.halt k i) s = .next (s.posted k haltCode .alreadyEnded 0)))

/-- R15, R16, R82, R83, R100, R136: HALT of the plan that holds its line. Between descriptors and in a pause it ends at once; with
an attempt being sent the plan is HALTING and the attempt is abandoned, as R100's table says by line state; in RESOLVING the plan
is HALTING and nothing else changes; in every other phase the exchange is given up ABANDONED and the plan ends. A LINE_DISABLE
that waits for the exchange then takes its ending step. R82, R83, R115: what giving an exchange up writes, and the release of its
pin; that the result writes are queued before the pin is released (log 28), and that a group without NOTE counts as completed too
(log 7), is the model's choice. What the record keeps once the phase is NONE is the model's choice (log 33). -/
def Obligations.HaltOfHolder : Prop :=
  (∀ (s : State) (k : Agent) (i : Slot), s.Accepts k haltCode → (s.plan i).state = .active →
    k = (s.plan i).agent ∨ k = 0 →
    let l := (s.plan i).line
    let t := s.posted k haltCode .done 0
    let halting := t.setPlan i { s.plan i with state := .halting }
    let asked := halting.setExch l { s.exch l with abandon := true, storing := false }
    let ends := fun u : State => endHolder l .halted .none u
    ((s.walk l).state ≠ .exchanging →
      ((s.driver l).disable ≠ .waitingExchange → exec (.halt k i) s = .next (select l (ends t))) ∧
      ((s.driver l).disable = .waitingExchange → exec (.halt k i) s = .next (endingStep l (ends t)))) ∧
    ((s.walk l).state = .exchanging → (s.exch l).phase = .onLine →
      ((s.lineCtl l).state ∈ [.waking, .sending, .aborting] → exec (.halt k i) s = .next asked) ∧
      ((s.lineCtl l).state = .awaiting → exec (.halt k i) s = .next (concludeAbandon l (enterSettling l asked))) ∧
      ((s.lineCtl l).state = .receiving →
        exec (.halt k i) s = .next (concludeAbandon l (enterSettling l (emptyFifo l asked)))) ∧
      ((s.lineCtl l).state ∉ [.waking, .sending, .aborting, .awaiting, .receiving] →
        exec (.halt k i) s = .next (concludeAbandon l (emptyFifo l asked)))) ∧
    ((s.walk l).state = .exchanging → (s.exch l).phase = .resolving → exec (.halt k i) s = .next halting) ∧
    ((s.walk l).state = .exchanging → (s.exch l).phase ≠ .onLine → (s.exch l).phase ≠ .resolving →
      ((s.driver l).disable ≠ .waitingExchange →
        exec (.halt k i) s = .next (select l (ends (giveUpExchange l .abandoned t)))) ∧
      ((s.driver l).disable = .waitingExchange →
        exec (.halt k i) s = .next (endingStep l (ends (giveUpExchange l .abandoned t)))))) ∧
  (∀ (s : State) (l : Line),
    let u := endHolder l .halted .none (giveUpExchange l .abandoned s)
    ((s.driver l).disable ≠ .waitingExchange → concludeAbandon l s = select l u) ∧
    ((s.driver l).disable = .waitingExchange → concludeAbandon l s = endingStep l u)) ∧
  (∀ (s : State) (l : Line) (o : ExchangeOutcome),
    let e := s.exch l
    let key : Key := { line := l, station := e.station }
    let others := fun q : List Line => q.filter fun x => decide (x ≠ l)
    let out := s.setCache { s.cache with
      stalls := upd s.cache.stalls (setOf key) (others (s.cache.stalls.get (setOf key))),
      handWaits := upd s.cache.handWaits (setOf key) (others (s.cache.handWaits.get (setOf key))) }
    let idle := fun t : State => t.setExch l { t.exch l with
      phase := .none, lookup := .none, retryPending := false, backoff := .stopped, abandon := false, storing := false }
    let given := out.setExch l { e with lookup := .none, outcome := some o }
    let ends := fun t : State => idle (releasePin l (finishGroup l (queueResults l o t)))
    (e.attempts = 0 → giveUpExchange l o s = idle (releasePin l (out.setExch l { e with lookup := .none }))) ∧
    (e.attempts ≠ 0 → e.frameBegun = false ∨ s.heldWay l = none → giveUpExchange l o s = ends given) ∧
    (∀ n : Fin 64, e.attempts ≠ 0 → e.frameBegun = true → s.heldWay l = some n →
      giveUpExchange l o s =
        ends (given.setWay n { s.way n with copy := { (s.way n).copy with toggleKnown := false }, dirty := true }))) ∧
  ∀ (s : State) (l : Line),
    let w := s.walk l
    let p := s.plan w.holder
    let n := p.completed + w.group.length
    let t := s.setExch l { s.exch l with entryHeld := false }
    (w.copy.note = false → finishGroup l s = s.setPlan w.holder { p with completed := n }) ∧
    (w.copy.note = true →
      finishGroup l s = s.setPlan w.holder { p with completed := n, notePosition := n, progressOwed := true }) ∧
    (s.heldWay l = none → releasePin l s = t) ∧
    (∀ i : Fin 64, s.heldWay l = some i →
      let u := t.setWay i { s.way i with pinned := false }
      (s.cache.stalls.get (setOfWay i) = [] → releasePin l s = u) ∧
      ∀ (m : Line) (rest : List Line), s.cache.stalls.get (setOfWay i) = m :: rest →
        releasePin l s = lookup m (u.setCache { u.cache with stalls := upd s.cache.stalls (setOfWay i) rest }))

/-- R11, R17 to R19: what ending a plan writes in its context, and when its final status write is handed over. A plan that is
IDLE, ENDING or ENDED is left as it is. R11, R31, R44: what ending the holder of a line does besides: the walk is given up, with
its requests detached, and the line has no holder. -/
def Obligations.EndingAPlan : Prop :=
  (∀ (s : State) (i : Slot) (code : EndCode) (detail : FaultDetail),
    let p := s.plan i
    let ended := p.state = .idle ∨ p.state = .ending ∨ p.state = .ended
    let q : Plan := { p with
      state := .ending, endCode := code, faultDetail := if code = .faulted then detail else .none,
      intervalTimer := .stopped, progressOwed := false }
    (ended → endPlan i code detail s = s) ∧
    (¬ended → p.outstanding ≠ 0 →
      endPlan i code detail s = s.setPlan i { q with noteFolded := p.noteFolded || p.progressOwed }) ∧
    (¬ended → p.outstanding = 0 →
      endPlan i code detail s =
        handOver
          { addr := s.unit.workBase + 0x140 + BitVec.ofNat 32 (0x40 * i.val) + 0x20, data := q.statusPart code,
            agent := p.agent, writer := .planUnit, op := .finalStatus i (p.noteFolded || p.progressOwed) }
          (s.setPlan i { q with noteFolded := false }))) ∧
  ∀ (s : State) (l : Line) (code : EndCode) (detail : FaultDetail),
    let t := endPlan (s.walk l).holder code detail s
    endHolder l code detail s =
        ((t.setPort (t.port.detach l)).setWalk l { s.walk l with
          state := .noHolder, group := [], pause := .stopped }).setSched l { s.sched l with holder := none } ∧
      stopWalk l detail s = endHolder l .faulted detail s

/-- R22, R21: the checks of RELEASE in their order, and the freeing of an ENDED slot: its PENDING bit goes, the backlog count
falls, the hold is cleared at the low mark (and every line then selects), and the context takes the values of R2. R21, R62, R52:
a cleared hold makes a selection on every line in service without a holder; the lines on which it would choose no plan are
left as they are, and the order of the others is the model's free choice (log 4). -/
def Obligations.ReleaseFreesEndedSlot : Prop :=
  (∀ (s : State) (k : Agent) (i : Slot), s.Accepts k releaseCode →
    let p := s.plan i
    let b := s.backlog
    let permitted := k = p.agent ∨ k = 0
    let freed := ((s.posted k releaseCode .done 0).setBacklog
      { b with count := b.count - 1, hold := b.hold && !decide (b.count - 1 ≤ b.lowMark),
               masks := upd b.masks p.agent (b.masks.get p.agent &&& ~~~(BitVec.twoPow 32 i.val)) }).setPlan i Plan.reset
    (p.state = .idle → exec (.release k i) s = .next (s.posted k releaseCode .noPlan 0)) ∧
    (p.state ≠ .idle → ¬permitted → exec (.release k i) s = .next (s.posted k releaseCode .notPermitted 0)) ∧
    (permitted →
      (p.state = .loading ∨ p.state = .ending → exec (.release k i) s = .next (s.posted k releaseCode .busy 0)) ∧
      (p.state.isLive = true → exec (.release k i) s = .next (s.posted k releaseCode .wrongState 0)) ∧
      (p.state = .ended → b.hold = true → b.count - 1 ≤ b.lowMark →
        exec (.release k i) s = .next (selectAll freed)) ∧
      (p.state = .ended → ¬(b.hold = true ∧ b.count - 1 ≤ b.lowMark) → exec (.release k i) s = .next freed))) ∧
  ∀ s : State,
    let chooses := fun l : Line =>
      (s.sched l).holder = none ∧ s.inService l = true ∧ ∃ e ∈ (s.sched l).queue, s.eligible l e = true
    (∃ (order : List Line) (n : Nat), order.Nodup ∧ (∀ l : Line, l ∈ order ↔ chooses l) ∧
      selectAll s = order.foldl (fun t l => select l t) (s.setChoices n)) ∧
    (∀ l : Line, ¬chooses l → select l s = s) ∧
    (∀ l : Line, (∀ m : Line, m ≠ l → ¬chooses m) → selectAll s = select l s)

/-- R10: the expiry of a plan's interval timer, by the plan's state. -/
def Obligations.IntervalExpires : Prop :=
  ∀ (s : State) (i : Slot), (s.plan i).intervalTimer.isRunning = true →
    let p := s.plan i
    (p.state = .active ∨ p.state = .halting ∨ p.state = .setAside →
      exec (.intervalExpiry i) s =
        .next (s.setPlan i { p with intervalTimer := .stopped, intervalExpired := true })) ∧
    (p.state = .waiting →
      exec (.intervalExpiry i) s =
        .next (select p.line (joinQueue i (s.setPlan i { p with intervalTimer := .stopped, state := .queued }))))

/-- R8, R9, R54: the end of a run. A single-run plan ends DONE. A cyclic plan gives up its line and becomes WAITING, or QUEUED
with an overrun counted when its interval has expired; with NOTE_RUNS a progress write is owed. -/
def Obligations.RunEnds : Prop :=
  ∀ (s : State) (l : Line),
    let i := (s.walk l).holder
    let p := s.plan i
    let c : Plan := { p with runCount := p.runCount + 1, lastRun := .complete }
    let noted : Plan := if p.noteRuns then { c with notePosition := p.completed, progressOwed := true } else c
    p.state = .active →
    (p.interval = 0 → runEnd l s = endHolder l .done .none (s.setPlan i c)) ∧
    (p.interval ≠ 0 → p.intervalExpired = false →
      runEnd l s = pumpProgress i (clearHolder l (leaveWalk l (s.setPlan i { noted with state := .waiting })))) ∧
    (p.interval ≠ 0 → p.intervalExpired = true →
      runEnd l s =
        pumpProgress i (joinQueue i (clearHolder l (leaveWalk l (s.setPlan i { noted with
          state := .queued, intervalExpired := false,
          overruns := if p.overruns = 0xFFFF then p.overruns else p.overruns + 1 })))))

/-- R18: the answer to a progress write sets NOTE for the plan's agent, lowers the outstanding count, and logs a reject; the
plan's next status write then follows. R18, R19: a progress write owed is handed over, with end code NONE, when no write of the plan
is outstanding and the plan has not ended; an ENDING plan's final status write is handed over, with the plan's end code, when the
last of its writes has been answered. The values are those of the context at that moment, in the fields of R18. -/
def Obligations.ProgressWriteAnswered : Prop :=
  (∀ (s : State) (e : WriteEntry) (i : Slot) (a : WriteAnswer), s.Writing e → e.op = .progress i →
    let u := s.afterWrite
    let p := u.plan i
    exec (.progressWriteAnswer a) s =
      .next (reportAfterAnswer i
        (((u.setAlarm p.agent { u.alarm p.agent with note := true }).logReject a .statusLost p.line
          (BitVec.ofNat 8 i.val) p.agent).setPlan i { p with outstanding := p.outstanding - 1 }))) ∧
  (∀ (s : State) (i : Slot),
    let p := s.plan i
    let due := p.progressOwed = true ∧ p.outstanding = 0 ∧ p.state ≠ .ending ∧ p.state ≠ .ended
    let status := fun (code : EndCode) (op : WriteOp) => ({
      addr := s.unit.workBase + 0x140 + BitVec.ofNat 32 (0x40 * i.val) + 0x20, data := p.statusPart code, agent := p.agent,
      writer := .planUnit, op := op } : WriteEntry)
    (due → pumpProgress i s =
      (handOver (status .none (.progress i)) s).setPlan i { p with progressOwed := false, outstanding := 1 }) ∧
    (¬due → pumpProgress i s = s) ∧
    (p.state ≠ .ending → reportAfterAnswer i s = pumpProgress i s) ∧
    (p.state = .ending → p.outstanding ≠ 0 → reportAfterAnswer i s = s) ∧
    (p.state = .ending → p.outstanding = 0 → reportAfterAnswer i s =
      (handOver (status p.endCode (.finalStatus i p.noteFolded)) s).setPlan i { p with noteFolded := false })) ∧
  ∀ (p : Plan) (code : EndCode),
    p.statusPart code =
      [code.byte, p.faultDetail.byte, if p.detailLine then 1 else 0, p.lastRun.byte] ++ wordBytes p.currentAddr ++
        [BitVec.ofNat 8 p.completed, BitVec.ofNat 8 p.notePosition] ++ halfBytes p.overruns ++ wordBytes p.runCount ++
        wordBytes p.labelEcho ++ List.replicate 12 0 ∧
    [EndCode.none, .done, .halted, .faulted].map EndCode.byte = [0, 1, 2, 3] ∧
    [FaultDetail.none, .descriptorInvalid, .window, .memoryReject, .stepLimit, .exchangeFailed, .lineCut,
      .lineDisabled].map FaultDetail.byte = [0, 1, 2, 3, 4, 5, 6, 7] ∧
    [RunResult.none, .complete].map RunResult.byte = [0, 1]

/-- R19, R20, R21: the answer to the final status write makes the plan ENDED whatever the answer: its PENDING bit is set, the
backlog count rises, the hold is set at the high mark, a note carried sets NOTE, and a reject is logged. -/
def Obligations.FinalStatusAnswered : Prop :=
  ∀ (s : State) (e : WriteEntry) (i : Slot) (note : Bool) (a : WriteAnswer), s.Writing e → e.op = .finalStatus i note →
    let u := s.afterWrite
    let p := u.plan i
    let b := u.backlog
    p.state = .ending →
    exec (.finalStatusWriteAnswer a) s =
      .next ((((u.setPlan i { p with state := .ended }).setBacklog
        { b with count := b.count + 1,
                 hold := b.hold || (decide (u.unit.partState = .opened) && decide (b.highMark ≤ b.count + 1)),
                 masks := upd b.masks p.agent (b.masks.get p.agent ||| BitVec.twoPow 32 i.val) }).setAlarm p.agent
        { u.alarm p.agent with note := (u.alarm p.agent).note || note }).logReject a .statusLost p.line
          (BitVec.ofNat 8 i.val) p.agent)

/-! ### Scheduling -/

/-- R60, R61: FLOOR sets the floor of its line and returns the floor before it; lowering the floor makes one selection. -/
def Obligations.FloorSet : Prop :=
  ∀ (s : State) (k : Agent) (l : Line) (value : Half), s.Accepts k floorCode →
    let old := (s.sched l).floor
    let t := (s.setSched l { s.sched l with floor := value.toNat }).posted k floorCode .done (BitVec.ofNat 16 old)
    (8 < value.toNat → exec (.floor k l value) s = .next (s.posted k floorCode .invalidArgument 0)) ∧
    (value.toNat ≤ 8 → old ≤ value.toNat → exec (.floor k l value) s = .next t) ∧
    (value.toNat ≤ 8 → value.toNat < old → exec (.floor k l value) s = .next (select l t))

/-- R50 to R53: a selection is made only on a line in service without a holder; it takes the first entry, in queue order, whose
plan's base class is at or above the floor and which is SET_ASIDE or finds the hold clear, and makes that plan the holder. -/
def Obligations.SelectionTakesFirstEligible : Prop :=
  ∀ (s : State) (l : Line),
    (s.inService l = true ↔ (s.lineCtl l).state ∉ [.disabled, .powering, .cut]) ∧
    (∀ e : QueueEntry, s.eligible l e = true ↔
      (s.sched l).floor ≤ (s.plan e.slot).baseClass ∧
        ((s.plan e.slot).state = .setAside ∨ ((s.plan e.slot).state = .queued ∧ s.backlog.hold = false))) ∧
    ((s.sched l).holder ≠ none ∨ s.inService l = false → select l s = s) ∧
    ((∀ e ∈ (s.sched l).queue, s.eligible l e = false) → select l s = s) ∧
    ∀ (e : QueueEntry) (before after : List QueueEntry), (s.sched l).holder = none → s.inService l = true →
      (s.sched l).queue = before ++ e :: after → (∀ x ∈ before, s.eligible l x = false) → s.eligible l e = true →
      (activate l e.slot s).fetchFault l = none → select l s = fetch l (activate l e.slot s)

/-- R7, R27, R53: what making a plan the holder changes: its entry leaves the queue, its class is its base class, and the walk
starts at the first descriptor, or resumes where a SET_ASIDE plan stood. -/
def Obligations.ActivationStartsOrResumes : Prop :=
  ∀ (s : State) (l : Line) (i : Slot),
    let p := s.plan i
    let x := s.sched l
    let t := s.setSched l { x with queue := x.queue.filter fun e => decide (e.slot ≠ i), holder := some i }
    (p.state = .setAside →
      activate l i s = (t.setPlan i { p with state := .active, effClass := p.baseClass }).setWalk l
        { s.walk l with
          state := .fetching, holder := i, nextAddr := p.currentAddr, steps := p.completed,
          afterJump := p.savedAfterJump, group := [] }) ∧
    (p.state ≠ .setAside →
      activate l i s =
        (t.setPlan i { p with
          state := .active, effClass := p.baseClass, currentAddr := p.firstAddr, completed := 0, savedAfterJump := false,
          intervalTimer := if p.interval = 0 then p.intervalTimer else .running p.interval.toNat,
          intervalExpired := if p.interval = 0 then p.intervalExpired else false }).setWalk l
          { s.walk l with
            state := .fetching, holder := i, nextAddr := p.firstAddr, steps := 0, afterJump := false, group := [] })

/-- R58, R59: an aging step raises the class of a plan below 7 by one, restarts its timer while the class is below 7, and gives
its entry the place the new class gives it. No selection follows. R48, R49: the order of a run queue by its three keys; an entry
put in its place stands behind the entries that stand before it and keeps the order; an entry that joins gets the join stamp
counter, which rises by 1; at the counter's highest value the stamps become 0, 1, 2 and so on in their order. -/
def Obligations.AgingRaisesClass : Prop :=
  (∀ (s : State) (i : Slot) (e : QueueEntry),
    let p := s.plan i
    let l := p.line
    let x := s.sched l
    let t := s.setPlan i { p with effClass := p.effClass + 1 }
    x.queue.find? (fun e => decide (e.slot = i)) = some e → e.aging.isRunning = true → p.effClass < 7 →
    exec (.agingExpiry i) s =
      .next (t.setSched l { x with
        queue := t.placeEntry
          { e with aging := if x.agingPeriod = 0 ∨ p.effClass = 6 then .stopped else .running x.agingPeriod }
          (x.queue.filter fun e => decide (e.slot ≠ i)) })) ∧
  (∀ (s : State) (a b : QueueEntry),
    let p := s.plan a.slot
    let q := s.plan b.slot
    s.standsBefore a b = true ↔
      q.effClass < p.effClass ∨
        (p.effClass = q.effClass ∧
          ((p.state = .setAside ∧ q.state ≠ .setAside) ∨
            ((p.state = .setAside ↔ q.state = .setAside) ∧ a.stamp < b.stamp)))) ∧
  (∀ (s : State) (e : QueueEntry) (before after : List QueueEntry),
    (∀ x ∈ before, s.standsBefore e x = false) → (∀ x ∈ after.head?, s.standsBefore e x = true) →
    s.placeEntry e (before ++ after) = before ++ e :: after) ∧
  (∀ (s : State) (e : QueueEntry) (q : List QueueEntry),
    q.Pairwise (fun a b => s.standsBefore a b = true) → (∀ x ∈ q, x.stamp ≠ e.stamp) →
    (s.placeEntry e q).Pairwise fun a b => s.standsBefore a b = true) ∧
  ∀ (s : State) (i : Slot),
    let p := s.plan i
    let x := s.sched p.line
    let joined := s.placeEntry
      { slot := i, stamp := x.stampCounter,
        aging := if x.agingPeriod = 0 ∨ 7 ≤ p.effClass then .stopped else .running x.agingPeriod } x.queue
    (x.stampCounter < 4294967295 →
      joinQueue i s = s.setSched p.line { x with queue := joined, stampCounter := x.stampCounter + 1 }) ∧
    (4294967295 ≤ x.stampCounter →
      joinQueue i s = s.setSched p.line { x with
        queue := joined.map fun e => { e with stamp := (joined.filter fun y => decide (y.stamp < e.stamp)).length },
        stampCounter := x.queue.length + 1 })

/-- R42, R55 to R57: at a boundary the holder yields to the first eligible entry when the boundary has no hold and that entry's
class is strictly higher; otherwise it goes on. A report that finds no boundary or no ACTIVE holder is discarded. -/
def Obligations.BoundaryDecided : Prop :=
  ∀ (s : State) (l : Line) (i : Slot),
    (¬((s.walk l).state = .atBoundary ∧ (s.sched l).holder = some i ∧ (s.plan i).state = .active) →
      (∀ j : Slot, (s.sched l).holder = some j → j = i) → exec (.boundaryDecision l) s = .next s) ∧
    ((s.walk l).state = .atBoundary → (s.sched l).holder = some i → (s.plan i).state = .active →
      (∀ e : QueueEntry, (s.walk l).boundaryHold = false → s.firstEligible l = some e →
        (s.plan i).effClass < (s.plan e.slot).effClass →
        exec (.boundaryDecision l) s =
          .next (select l (fetch l (activate l e.slot (joinQueue i (leaveWalk l
            (s.setPlan i { s.plan i with state := .setAside, savedAfterJump := (s.walk l).afterJump }))))))) ∧
      (((s.walk l).boundaryHold = true ∨ s.firstEligible l = none ∨
          ∃ e : QueueEntry, s.firstEligible l = some e ∧ (s.plan e.slot).effClass ≤ (s.plan i).effClass) →
        exec (.boundaryDecision l) s = .next (select l (fetch l s))))

/-! ### Line drivers and supervision -/

/-- R126: LINE_ENABLE is refused unless the line is DISABLED; for a DISABLED line it asks for the line's setup record. -/
def Obligations.LineEnableAsksForSetup : Prop :=
  ∀ (s : State) (l : Line), s.Accepts 0 lineEnableCode →
    ((s.lineCtl l).state ≠ .disabled →
      exec (.lineEnable 0 l) s = .next (s.posted 0 lineEnableCode .wrongState 0)) ∧
    ((s.lineCtl l).state = .disabled →
      exec (.lineEnable 0 l) s =
        .next (askRead
          { addr := s.unit.workBase + 0x40 + BitVec.ofNat 32 (0x40 * l.val), length := 64, agent := 0,
            requester := .driver l, op := .setup l, live := true }
          (s.inProgress 0 (wordOf lineEnableCode l 0 0))))

/-- R124, R125: the checks of the setup record and the setup it gives. A rejected read is a LOAD_FAULT. The first of the checks 2 to
16 that a record fails gives INVALID_SETUP with the check's number; a record that passes every check, and only such a one, gives
the setup with each field of R124 from its place in the record (Section 11.1). A cutoff code above 3 fails check 14, as IGNORE
with a HOT budget of 0 does. -/
def Obligations.SetupInForceIsLegal : Prop :=
  checkSetup .reject = .error (.loadFault, 0) ∧
  (∀ data : List Byte,
    let byte := fun i : Nat => (byteAt data i).toNat
    let half := fun i : Nat => byte i + 256 * byte (i + 1)
    let base := byte 0x18 + 256 * byte 0x19 + 65536 * byte 0x1A + 16777216 * byte 0x1B
    let speed := byte 0x00
    let replyStart := half 0x02
    let charGap := byte 0x04
    let guardGap := byte 0x05
    let busyBackoff := half 0x06
    let retryLimit := byte 0x08
    let quarantineLimit := byte 0x09
    let releaseLevel := byte 0x0A
    let cutoff := byte 0x0B
    let drainPeriod := half 0x0C
    let warm := byte 0x0E
    let hot := byte 0x0F
    let cool := byte 0x10
    let warmBudget := byte 0x11
    let hotBudget := byte 0x12
    let window := byte 0x13
    let overcurrent := byte 0x14
    let settle := half 0x16
    let passes : Nat → Prop := fun
      | 2 => speed ≤ 7
      | 3 => 1 ≤ replyStart ∧ replyStart ≤ 2000
      | 4 => 2 ≤ charGap ∧ charGap ≤ 32
      | 5 => 1 ≤ guardGap ∧ guardGap ≤ 32
      | 6 => 1 ≤ busyBackoff ∧ busyBackoff ≤ 5000
      | 7 => retryLimit ≤ 7
      | 8 => 1 ≤ quarantineLimit ∧ quarantineLimit ≤ 15 ∧ releaseLevel < quarantineLimit
      | 9 => 1 ≤ drainPeriod
      | 10 => (40 ≤ warm ∧ warm ≤ 150) ∧ (40 ≤ hot ∧ hot ≤ 150) ∧ warm < hot
      | 11 => (cool ≠ 0 → warmBudget ≠ 0 ∧ warmBudget ≤ cool) ∧ (warmBudget ≠ 0 → hotBudget ≤ warmBudget)
      | 12 => 1 ≤ window ∧ window ≤ 100
      | 13 => 1 ≤ overcurrent ∧ overcurrent ≤ 50
      | 14 => cutoff ≤ 3 ∧ ¬(cutoff = 3 ∧ hotBudget = 0)
      | 15 => settle ≤ 5000
      | 16 => base % 32 = 0
      | _ => True
    let setup : Setup :=
      { speed := speed, parity := decide (byte 0x01 ≠ 0), replyStart := replyStart, charGap := charGap, guardGap := guardGap,
        busyBackoff := busyBackoff, retryLimit := retryLimit, quarantineLimit := quarantineLimit,
        releaseLevel := releaseLevel,
        cutoff := if cutoff = 0 then .float else if cutoff = 1 then .holdMark else if cutoff = 2 then .holdSpace else .ignore,
        drainPeriod := drainPeriod, warm := warm, hot := hot, coolBudget := cool, warmBudget := warmBudget,
        hotBudget := hotBudget, window := window, overcurrent := overcurrent, settle := settle,
        tableBase := BitVec.ofNat 32 base }
    (∀ n : Nat, n ≤ 16 → (∀ m : Nat, m < n → passes m) → ¬passes n →
      checkSetup (.accept data) = .error (.invalidSetup, BitVec.ofNat 16 n)) ∧
    ((∀ n : Nat, n ≤ 16 → passes n) → checkSetup (.accept data) = .ok setup) ∧
    (∀ u : Setup, checkSetup (.accept data) = .ok u → u = setup ∧ ∀ n : Nat, n ≤ 16 → passes n)) ∧
  ∀ (data : List Byte) (u : Setup), checkSetup (.accept data) = .ok u →
    u.speed ≤ 7 ∧ (1 ≤ u.replyStart ∧ u.replyStart ≤ 2000) ∧ (2 ≤ u.charGap ∧ u.charGap ≤ 32) ∧
      (1 ≤ u.guardGap ∧ u.guardGap ≤ 32) ∧ (1 ≤ u.busyBackoff ∧ u.busyBackoff ≤ 5000) ∧ u.retryLimit ≤ 7 ∧
      (1 ≤ u.quarantineLimit ∧ u.quarantineLimit ≤ 15) ∧ u.releaseLevel < u.quarantineLimit ∧ 1 ≤ u.drainPeriod ∧
      (40 ≤ u.warm ∧ u.warm < u.hot ∧ u.hot ≤ 150) ∧ (1 ≤ u.window ∧ u.window ≤ 100) ∧
      (1 ≤ u.overcurrent ∧ u.overcurrent ≤ 50) ∧ ¬(u.cutoff = .ignore ∧ u.hotBudget = 0) ∧ u.settle ≤ 5000 ∧
      u.tableBase.toNat % 32 = 0 ∧ (u.coolBudget ≠ 0 → u.warmBudget ≠ 0 ∧ u.warmBudget ≤ u.coolBudget) ∧
      (u.warmBudget ≠ 0 → u.hotBudget ≤ u.warmBudget)

/-- R125, R126: the answer to the setup read posts the verdict of the first check that fails, or brings the line up: setup,
epochs, zone, count and timers, POWERING, and the write of the new power epoch. A settle time of 0 expires in the same step
(R127). With a trip input active and a cutoff level other than IGNORE the line is CUT in the same step, LINE_TRIP is logged for the
onset taken first, and the power epoch is written as otherwise. R132: with cutoff level IGNORE each active input is logged as
TRIP_IGNORED and the line comes up as otherwise. Which of two active inputs is taken first is the model's free choice (log 4). -/
def Obligations.SetupAnswered : Prop :=
  ∀ (s : State) (r : ReadRequest) (l : Line) (a : ReadAnswer), s.Reading r → r.op = .setup l →
    a.hasLength r.length = true → (s.lineCtl l).state = .disabled → s.unit.partState = .opened →
    (∀ v : VerdictCode × Half, checkSetup a = .error v →
      exec (.setupReadAnswer a) s = .next (postVerdict 0 v.1 v.2 s.afterRead)) ∧
    ∀ (data : List Byte) (u : Setup), a = .accept data → checkSetup a = .ok u →
      let quiet := (s.driver l).pinOvercurrent = false ∧ (s.driver l).pinTripInput = false
      let epoch := wordAt data 0x34 + 1
      let powerWrite : WriteEntry :=
        { addr := s.unit.workBase + 0x40 + BitVec.ofNat 32 (0x40 * l.val) + 0x34, data := wordBytes epoch, agent := 0,
          writer := .driver l, op := .powerEpoch l }
      let up := fun d : Driver => (s.afterRead.setLine l { s.lineCtl l with state := .powering }).setDriver l { d with
        setup := u, drainEpoch := wordAt data 0x30, powerEpoch := epoch, zone := .cool, windowCount := 0,
        windowTimer := .running (100 * u.window), drainTimer := .running u.drainPeriod,
        settleTimer := .running u.settle }
      let t := handOver powerWrite (up { s.driver l with overcurrent := false, tripInput := false })
      let active := fun p : TripPin => match p with
        | .overcurrent => (s.driver l).pinOvercurrent = true
        | .tripInput => (s.driver l).pinTripInput = true
      let place := fun p : TripPin => match p with
        | .overcurrent => (1 : Byte)
        | .tripInput => (2 : Byte)
      let looked := up { s.driver l with
        overcurrent := (s.driver l).pinOvercurrent, tripInput := (s.driver l).pinTripInput }
      (quiet → u.settle ≠ 0 → exec (.setupReadAnswer a) s = .next t) ∧
      (quiet → u.settle = 0 → exec (.setupReadAnswer a) s = .next (settleEnds l t)) ∧
      (¬quiet → u.cutoff ≠ .ignore → (s.driver l).disable ≠ .waitingExchange →
        ∃ c : State, exec (.setupReadAnswer a) s = .next c ∧ (c.lineCtl l).state = .cut ∧
          (c.driver l).powerEpoch = epoch ∧ (c.driver l).setup = u ∧ (c.driver l).settleTimer = .stopped ∧
          (∀ m : Line, m ≠ l → c.lineCtl m = s.lineCtl m ∧ c.driver m = s.driver m ∧ c.sched m = s.sched m) ∧
          c.backlog = s.backlog ∧ c.unit.partState = s.unit.partState ∧ c.pending = s.pending ∧
          ∃ (p : TripPin) (n : Nat), active p ∧ c = handOver powerWrite (cutLine l (place p) (looked.setChoices n)) ∧
            c.log = s.log.record .lineTrip l (place p) 0) ∧
      (u.cutoff = .ignore →
        ∃ (order : List TripPin) (n : Nat), order.Nodup ∧ (∀ p : TripPin, p ∈ order ↔ active p) ∧
          let logged := order.foldl (fun g p => g.record .tripIgnored l (place p) 0) s.log
          let v := handOver powerWrite ((looked.setChoices n).setLog logged)
          (u.settle ≠ 0 → exec (.setupReadAnswer a) s = .next v) ∧
          (u.settle = 0 → exec (.setupReadAnswer a) s = .next (settleEnds l v)))

/-- R126, R133, R137: the answers to the power epoch write and to the epoch write post DONE with 0 or 1; the second one ends
LINE_DISABLE. -/
def Obligations.EpochWritesAnswered : Prop :=
  ∀ (s : State) (e : WriteEntry) (l : Line) (a : WriteAnswer), s.Writing e →
    let u := s.afterWrite
    let value : Half := if a = .accept then 0 else 1
    (e.op = .powerEpoch l → exec (.powerEpochWriteAnswer a) s = .next (postVerdict 0 .done value u)) ∧
    (e.op = .epochs l →
      exec (.epochWriteAnswer a) s =
        .next (postVerdict 0 .done value (u.setDriver l { u.driver l with disable := .none })))

/-- R13, R136: LINE_DISABLE is refused on a DISABLED line and waits for an exchange in flight. Otherwise it takes its ending
step, in which every plan on the line ends FAULTED with LINE_DISABLED (a HALTING one HALTED), the run queue is empty, the timers
stop, the driver floats and the line is DISABLED; plans of other lines keep their states. The second part says so of every
ending step, also of one that has waited for an exchange. -/
def Obligations.LineDisableEndsPlans : Prop :=
  let ended := fun (l : Line) (s t : State) => (t.lineCtl l).state = .disabled ∧ t.driverLevel l = .floats ∧
    (t.sched l).holder = none ∧ (t.sched l).queue = [] ∧ (t.walk l).state = .noHolder ∧
    (t.driver l).settleTimer = .stopped ∧ (t.driver l).windowTimer = .stopped ∧
    (t.driver l).drainTimer = .stopped ∧
    ((t.driver l).disable = .writingBack ∨ (t.driver l).disable = .writingEpochs) ∧
    (∀ i : Slot, (s.plan i).line = l → (s.plan i).state.isLive = true →
      (t.plan i).state = .ending ∧
        (t.plan i).endCode = (if (s.plan i).state = .halting then .halted else .faulted) ∧
        (t.plan i).faultDetail = (if (s.plan i).state = .halting then .none else .lineDisabled)) ∧
    (∀ i : Slot, (s.plan i).line ≠ l ∨ (s.plan i).state.isLive = false →
      (t.plan i).state = (s.plan i).state ∧ (t.plan i).endCode = (s.plan i).endCode) ∧
    (∀ m : Line, m ≠ l → t.lineCtl m = s.lineCtl m ∧ t.sched m = s.sched m ∧ t.driver m = s.driver m) ∧
    t.backlog = s.backlog ∧ t.log = s.log ∧ t.unit.partState = s.unit.partState
  (∀ (s : State) (l : Line), s.Accepts 0 lineDisableCode →
    let w := wordOf lineDisableCode l 0 0
    ((s.lineCtl l).state = .disabled →
      exec (.lineDisable 0 l) s = .next (s.posted 0 lineDisableCode .wrongState 0)) ∧
    ((s.lineCtl l).state ≠ .disabled → (s.walk l).state = .exchanging →
      exec (.lineDisable 0 l) s =
        .next ((s.inProgress 0 w).setDriver l { s.driver l with disable := .waitingExchange })) ∧
    ((s.lineCtl l).state ≠ .disabled → (s.walk l).state ≠ .exchanging →
      ∃ t : State, exec (.lineDisable 0 l) s = .next t ∧ ended l s t ∧ t = endingStep l (s.inProgress 0 w))) ∧
  ∀ (s : State) (l : Line), ended l s (endingStep l s)

/-- R133: LINE_RESTORE of a line that is not CUT, of one with an active source, of a HOLD_MARK cut and of any other cut. A settle
time of 0 expires in the same step (R127). -/
def Obligations.LineRestoreByCutoffLevel : Prop :=
  ∀ (s : State) (l : Line), s.Accepts 0 lineRestoreCode →
    let d := s.driver l
    let sum := (if d.overcurrent then 1 else 0) + (if d.tripInput then 2 else 0) +
      (if d.zone = .hot ∧ d.setup.hotBudget = 0 then 4 else 0)
    let up := handOver
      { addr := s.unit.workBase + 0x40 + BitVec.ofNat 32 (0x40 * l.val) + 0x34, data := wordBytes (d.powerEpoch + 1),
        agent := 0, writer := .driver l, op := .powerEpoch l }
      (((s.inProgress 0 (wordOf lineRestoreCode l 0 0)).setLine l { s.lineCtl l with state := .powering }).setDriver l
        { d with powerEpoch := d.powerEpoch + 1, settleTimer := .running d.setup.settle })
    ((s.lineCtl l).state ≠ .cut → exec (.lineRestore 0 l) s = .next (s.posted 0 lineRestoreCode .wrongState 0)) ∧
    ((s.lineCtl l).state = .cut →
      (sum ≠ 0 →
        exec (.lineRestore 0 l) s = .next (s.posted 0 lineRestoreCode .stillTripped (BitVec.ofNat 16 sum))) ∧
      (sum = 0 → d.setup.cutoff = .holdMark →
        exec (.lineRestore 0 l) s =
          .next (select l ((s.posted 0 lineRestoreCode .done 0).setLine l { s.lineCtl l with
            state := .settling, tx := .none, rx := none, replyStart := .stopped, charGap := .stopped,
            abort := .stopped, guard := guardFor (s.lineCtl l).input d.setup.guardGap }))) ∧
      (sum = 0 → d.setup.cutoff ≠ .holdMark → d.setup.settle ≠ 0 → exec (.lineRestore 0 l) s = .next up) ∧
      (sum = 0 → d.setup.cutoff ≠ .holdMark → d.setup.settle = 0 →
        exec (.lineRestore 0 l) s = .next (settleEnds l up)))

/-- R130 to R132, R147: an onset of a trip input. On a DISABLED line, and with the source already active, nothing is taken; a CUT
line takes note of the source; IGNORE logs TRIP_IGNORED; every other cutoff level cuts the line: CUT, driver at the cutoff level,
settle timer stopped, no exchange in flight, the holder ended, LINE_TRIP logged, and nothing of the other lines but what a pin
released lets a stalled lookup do. R136: where LINE_DISABLE waits for the exchange, its ending step follows at once. R85, R78,
R13: how the cut ends the exchange and the holder; that a group without NOTE given up, or any group cut in RESOLVING, counts as
completed (log 7), and that the result writes are queued before the pin's release (log 28), is the model's choice, as is that a
DISABLED line notes the pin alone (log 26). A source that falls back to inactive does nothing by itself. What the record keeps
once the phase is NONE is the model's choice (log 33). -/
def Obligations.TripSourcesTaken : Prop :=
  (∀ (s : State) (l : Line) (p : TripPin),
    let pinned := s.setDriver l ((s.driver l).setPin p true)
    let seen := s.setDriver l (((s.driver l).setPin p true).setSource p true)
    let place : Byte := if p = .overcurrent then 1 else 2
    ((s.lineCtl l).state = .disabled ∨ (s.driver l).source p = true → exec (.tripOnset l p) s = .next pinned) ∧
    ((s.driver l).source p = false → (s.lineCtl l).state = .cut → exec (.tripOnset l p) s = .next seen) ∧
    ((s.driver l).source p = false → (s.lineCtl l).state ≠ .disabled → (s.lineCtl l).state ≠ .cut →
      ((s.driver l).setup.cutoff = .ignore →
        exec (.tripOnset l p) s = .next (seen.setLog (s.log.record .tripIgnored l place 0))) ∧
      ((s.driver l).setup.cutoff ≠ .ignore → (s.driver l).disable ≠ .waitingExchange →
        ∃ t : State, exec (.tripOnset l p) s = .next t ∧ t = cutLine l place seen ∧ t.lineCtl l = (s.lineCtl l).cut ∧
          (t.lineCtl l).state = .cut ∧ (t.lineCtl l).fifo = [] ∧
          t.driverLevel l = (s.driver l).setup.cutoff.level ∧
          t.driver l = { ((s.driver l).setPin p true).setSource p true with settleTimer := .stopped } ∧
          ((s.walk l).state = .exchanging → (t.exch l).phase = .none) ∧ (t.walk l).state = .noHolder ∧
          (t.sched l).holder = none ∧ (t.sched l).queue = (s.sched l).queue ∧
          t.log = s.log.record .lineTrip l place 0 ∧
          (∀ i : Slot, (s.sched l).holder = some i → (s.walk l).holder = i → (s.plan i).state = .active →
            (t.plan i).state = .ending ∧ (t.plan i).endCode = .faulted ∧ (t.plan i).faultDetail = .lineCut) ∧
          (∀ i : Slot, (s.sched l).holder = some i → (s.walk l).holder = i → (s.plan i).state = .halting →
            (t.plan i).state = .ending ∧ (t.plan i).endCode = .halted ∧ (t.plan i).detailLine = true) ∧
          (∀ i : Slot, (s.walk l).holder ≠ i → (s.sched l).holder ≠ some i →
            (t.plan i).state = (s.plan i).state ∧ (t.plan i).endCode = (s.plan i).endCode) ∧
          (∀ m : Line, m ≠ l → t.lineCtl m = s.lineCtl m ∧ t.driver m = s.driver m ∧ t.sched m = s.sched m) ∧
          t.backlog = s.backlog ∧ t.unit.partState = s.unit.partState) ∧
      ((s.driver l).setup.cutoff ≠ .ignore → (s.driver l).disable = .waitingExchange →
        ∃ c t : State, exec (.tripOnset l p) s = .next t ∧ t = endingStep l c ∧ t = cutLine l place seen ∧
          ((s.walk l).state = .exchanging → (c.exch l).phase = .none) ∧
          t.lineCtl l = { (s.lineCtl l).cut with state := .disabled } ∧ t.driverLevel l = .floats ∧
          (t.walk l).state = .noHolder ∧
          (t.sched l).holder = none ∧ (t.sched l).queue = [] ∧
          ((t.driver l).disable = .writingBack ∨ (t.driver l).disable = .writingEpochs) ∧
          (t.driver l).settleTimer = .stopped ∧ (t.driver l).windowTimer = .stopped ∧ (t.driver l).drainTimer = .stopped ∧
          t.log = s.log.record .lineTrip l place 0 ∧
          (∀ i : Slot, (s.sched l).holder = some i → (s.walk l).holder = i → (s.plan i).state = .active →
            (t.plan i).state = .ending ∧ (t.plan i).endCode = .faulted ∧ (t.plan i).faultDetail = .lineCut) ∧
          (∀ i : Slot, (s.sched l).holder = some i → (s.walk l).holder = i → (s.plan i).state = .halting →
            (t.plan i).state = .ending ∧ (t.plan i).endCode = .halted ∧ (t.plan i).detailLine = true) ∧
          (∀ i : Slot, (s.walk l).holder ≠ i → (s.sched l).holder ≠ some i → (s.plan i).line = l →
            (s.plan i).state = .queued ∨ (s.plan i).state = .setAside ∨ (s.plan i).state = .waiting →
            (t.plan i).state = .ending ∧ (t.plan i).endCode = .faulted ∧ (t.plan i).faultDetail = .lineDisabled) ∧
          (∀ m : Line, m ≠ l → t.lineCtl m = s.lineCtl m ∧ t.driver m = s.driver m ∧ t.sched m = s.sched m) ∧
          t.backlog = s.backlog ∧ t.unit.partState = s.unit.partState)) ∧
    exec (.tripSourceCleared l .overcurrent) s =
      .next (s.setDriver l { s.driver l with pinOvercurrent := false, overcurrent := false }) ∧
    exec (.tripSourceCleared l .tripInput) s =
      .next (s.setDriver l { s.driver l with pinTripInput := false, tripInput := false })) ∧
  ∀ (s : State) (l : Line) (place : Byte),
    let c := s.setLine l (s.lineCtl l).cut
    let b := pumpWaiting (c.setPort (c.port.dropPayloadWait l))
    let t := cutHolder l (cutExchange l (b.setDriver l { s.driver l with settleTimer := .stopped }))
    let cut := t.setLog (s.log.record .lineTrip l place 0)
    let idle := fun t : State => t.setExch l { t.exch l with
      phase := .none, lookup := .none, retryPending := false, backoff := .stopped, abandon := false, storing := false }
    ((s.driver l).disable ≠ .waitingExchange → cutLine l place s = cut) ∧
    ((s.driver l).disable = .waitingExchange → cutLine l place s = endingStep l cut) ∧
    ((s.walk l).state ≠ .exchanging → cutExchange l s = s) ∧
    ((s.walk l).state = .exchanging → (s.exch l).phase = .resolving →
      cutExchange l s = idle (releasePin l (finishGroup l s))) ∧
    ((s.walk l).state = .exchanging → (s.exch l).phase ≠ .resolving → cutExchange l s = giveUpExchange l .cut s) ∧
    ((s.sched l).holder = none →
      cutHolder l s = (s.setPort (s.port.detach l)).setWalk l { s.walk l with
        state := .noHolder, group := [], pause := .stopped }) ∧
    (∀ i : Slot, (s.sched l).holder = some i →
      ((s.plan i).state = .halting →
        cutHolder l s = endHolder l .halted .none (s.setPlan i { s.plan i with detailLine := true })) ∧
      ((s.plan i).state ≠ .halting → cutHolder l s = endHolder l .faulted .lineCut s))

/-- R128, R130: a sample moves the zone as the table says, with its hysteresis of 5 degrees. Where that is no onset of THERMAL
and on a CUT line, nothing else changes; an onset of THERMAL on a line in use, which IGNORE never sees (R125), cuts the line,
and where a LINE_DISABLE waits for its exchange the ending step follows at once (R136). No sample is taken of a DISABLED line. -/
def Obligations.TemperatureMovesZone : Prop :=
  (∀ (w h : Nat) (x : Int), w < h →
    ((h : Int) ≤ x → Zone.next .cool w h x = .hot ∧ Zone.next .warm w h x = .hot) ∧
    ((w : Int) ≤ x → x < h → Zone.next .cool w h x = .warm) ∧ (x < w → Zone.next .cool w h x = .cool) ∧
    ((w : Int) - 5 ≤ x → x < h → Zone.next .warm w h x = .warm) ∧
    (x < (w : Int) - 5 → Zone.next .warm w h x = .cool ∧ Zone.next .hot w h x = .cool) ∧
    ((h : Int) - 5 ≤ x → Zone.next .hot w h x = .hot) ∧
    ((w : Int) - 5 ≤ x → x < (h : Int) - 5 → Zone.next .hot w h x = .warm)) ∧
  ∀ (s : State) (l : Line) (x : Int),
    let d := s.driver l
    let z := d.zone.next d.setup.warm d.setup.hot x
    ((s.lineCtl l).state = .disabled → exec (.temperatureSample l x) s = .next s) ∧
    ((s.lineCtl l).state ≠ .disabled →
      (s.lineCtl l).state = .cut ∨ ¬(z = .hot ∧ d.zone ≠ .hot ∧ d.setup.hotBudget = 0) →
      exec (.temperatureSample l x) s = .next (s.setDriver l { d with zone := z })) ∧
    ((s.lineCtl l).state ≠ .disabled → (s.lineCtl l).state ≠ .cut → z = .hot → d.zone ≠ .hot →
      d.setup.hotBudget = 0 → d.setup.cutoff ≠ .ignore → d.disable ≠ .waitingExchange →
      ∃ t : State, exec (.temperatureSample l x) s = .next t ∧ (t.lineCtl l).state = .cut ∧
        t = cutLine l 4 (s.setDriver l { d with zone := .hot }) ∧
        (t.driver l).zone = .hot ∧ t.log = s.log.record .lineTrip l 4 0 ∧ (t.sched l).holder = none ∧
        (∀ m : Line, m ≠ l → t.lineCtl m = s.lineCtl m ∧ t.driver m = s.driver m ∧ t.sched m = s.sched m) ∧
        t.backlog = s.backlog ∧ t.unit.partState = s.unit.partState) ∧
    ((s.lineCtl l).state ≠ .disabled → (s.lineCtl l).state ≠ .cut → z = .hot → d.zone ≠ .hot →
      d.setup.hotBudget = 0 → d.setup.cutoff ≠ .ignore → d.disable = .waitingExchange →
      ∃ c t : State, exec (.temperatureSample l x) s = .next t ∧ t = endingStep l c ∧
        t = cutLine l 4 (s.setDriver l { d with zone := .hot }) ∧
        ((s.walk l).state = .exchanging → (c.exch l).phase = .none) ∧
        t.lineCtl l = { (s.lineCtl l).cut with state := .disabled } ∧ t.driverLevel l = .floats ∧
        (t.walk l).state = .noHolder ∧ (t.sched l).holder = none ∧ (t.sched l).queue = [] ∧
        ((t.driver l).disable = .writingBack ∨ (t.driver l).disable = .writingEpochs) ∧
        (t.driver l).settleTimer = .stopped ∧ (t.driver l).windowTimer = .stopped ∧ (t.driver l).drainTimer = .stopped ∧
        t.log = s.log.record .lineTrip l 4 0 ∧
        (∀ i : Slot, (s.sched l).holder = some i → (s.walk l).holder = i → (s.plan i).state = .active →
          (t.plan i).state = .ending ∧ (t.plan i).endCode = .faulted ∧ (t.plan i).faultDetail = .lineCut) ∧
        (∀ i : Slot, (s.sched l).holder = some i → (s.walk l).holder = i → (s.plan i).state = .halting →
          (t.plan i).state = .ending ∧ (t.plan i).endCode = .halted ∧ (t.plan i).detailLine = true) ∧
        (∀ i : Slot, (s.walk l).holder ≠ i → (s.sched l).holder ≠ some i → (s.plan i).line = l →
          (s.plan i).state = .queued ∨ (s.plan i).state = .setAside ∨ (s.plan i).state = .waiting →
          (t.plan i).state = .ending ∧ (t.plan i).endCode = .faulted ∧ (t.plan i).faultDetail = .lineDisabled) ∧
        (∀ m : Line, m ≠ l → t.lineCtl m = s.lineCtl m ∧ t.driver m = s.driver m ∧ t.sched m = s.sched m) ∧
        t.backlog = s.backlog ∧ t.unit.partState = s.unit.partState)

/-- R127, R129, R134: the expiries of a Driver Monitor's window timer, drain timer and settle timer; a timer that is stopped
does not expire (the model's choice for such an event, log 3). R127: the settle timer's expiry, and a settle time of 0, make the
line READY, and a selection follows. With the receive input at space the line enters SETTLING instead, its guard timer held at the
full gap (R99; the model's choice, log 13), and the selection follows as well. -/
def Obligations.DriverTimersExpire : Prop :=
  ∀ (s : State) (l : Line),
    let d := s.driver l
    (d.windowTimer.isRunning = true →
      exec (.budgetWindowExpiry l) s =
        .next (s.setDriver l { d with windowCount := 0, windowTimer := .running (100 * d.setup.window) })) ∧
    (d.windowTimer = .stopped → exec (.budgetWindowExpiry l) s = .next s) ∧
    (d.drainTimer.isRunning = true →
      exec (.drainExpiry l) s =
        .next (s.setDriver l { d with drainEpoch := d.drainEpoch + 1, drainTimer := .running d.setup.drainPeriod })) ∧
    (d.drainTimer = .stopped → exec (.drainExpiry l) s = .next s) ∧
    ((s.lineCtl l).state = .powering → d.settleTimer.isRunning = true → (s.lineCtl l).input = .mark →
      exec (.settleExpiry l) s =
        .next (select l ((s.setDriver l { d with settleTimer := .stopped }).setLine l
          { s.lineCtl l with state := .ready, guard := .stopped }))) ∧
    ((s.lineCtl l).state = .powering → d.settleTimer.isRunning = true → (s.lineCtl l).input = .space →
      exec (.settleExpiry l) s = .next (select l ((s.setDriver l { d with settleTimer := .stopped }).setLine l
        { s.lineCtl l with
          state := .settling, tx := .none, rx := none, replyStart := .stopped, charGap := .stopped, abort := .stopped,
          guard := .held d.setup.guardGap }))) ∧
    ((s.lineCtl l).state = .powering → d.settleTimer.isRunning = true →
      exec (.settleExpiry l) s = .next (settleEnds l s)) ∧
    ((s.lineCtl l).input = .mark →
      settleEnds l s = select l ((s.setDriver l { d with settleTimer := .stopped }).setLine l
        { s.lineCtl l with state := .ready, guard := .stopped })) ∧
    ((s.lineCtl l).input = .space →
      settleEnds l s = select l ((s.setDriver l { d with settleTimer := .stopped }).setLine l
        { s.lineCtl l with
          state := .settling, tx := .none, rx := none, replyStart := .stopped, charGap := .stopped, abort := .stopped,
          guard := .held d.setup.guardGap })) ∧
    (d.settleTimer = .stopped → exec (.settleExpiry l) s = .next s)

/-! ### Registers, attention and the Fault Log -/

/-- R151: WORK_BASE takes a value from agent 0 while the part is CLOSED, no OPEN is in progress and the Alarm Unit has no work,
with its low eight bits as zero; every other write of it is ignored. -/
def Obligations.WorkBaseWritten : Prop :=
  ∀ (s : State) (k : Agent) (value : Word),
    let free := s.unit.partState = .closed ∧ s.unit.openInProgress = false ∧
      ∀ j : Agent, (s.alarm j).op = .none ∧ (s.alarm j).waiting = [] ∧ (s.alarm j).take = none
    (k = 0 ∧ free →
      exec (.workBaseWrite k value) s = .next (s.setUnit { s.unit with workBase := value &&& 0xFFFFFF00 })) ∧
    (¬(k = 0 ∧ free) → exec (.workBaseWrite k value) s = .next s)

/-- R144, R145: a write of ENABLE sets the agent's mask, and the attention line of an agent is high exactly while one of its
seven conditions holds that its mask enables. -/
def Obligations.AttentionFollowsConditions : Prop :=
  (∀ (s : State) (k : Agent) (value : Word),
    exec (.enableWrite k value) s = .next (s.setBank k { s.bank k with enable := value.extractLsb' 0 7 })) ∧
  ∀ (s : State) (k : Agent),
    ((s.conditions k).getLsbD 0 = true ↔ s.mask k ≠ 0) ∧
    ((s.conditions k).getLsbD 1 = (s.alarm k).note) ∧
    ((s.conditions k).getLsbD 2 = true ↔ 0 < (s.alarm k).count) ∧
    ((s.conditions k).getLsbD 3 = (s.alarm k).overflow) ∧
    ((s.conditions k).getLsbD 4 = (s.bank k).overrun) ∧
    ((s.conditions k).getLsbD 5 = true ↔ k = 0 ∧ s.log.valid = true) ∧
    ((s.conditions k).getLsbD 6 = true ↔ k = 0 ∧ ∃ l : Line, (s.lineCtl l).state = .cut) ∧
    (s.attention k = true ↔ ∃ n : Nat, (s.conditions k).getLsbD n = true ∧ (s.bank k).enable.getLsbD n = true)

/-- R144, R150: a read of SUMMARY returns its flags as they stand and then clears NOTE and OVERRUN; a read of all 4 bytes
returns the whole register. Its flags are the six conditions of R144 at the bits of Section 11.5; bit 0 and the bits above them are
0. What the last read returned is a field of the model's own (log 10). -/
def Obligations.SummaryReadClears : Prop :=
  ∀ (s : State) (k : Agent) (first count : Nat),
    let value : Word := (s.summary k).setWidth 32
    exec (.summaryRead k first count) s =
      .next (((s.setAlarm k { s.alarm k with note := false }).setBank k { s.bank k with overrun := false }).setReadData
        (readLanes value first count)) ∧
    readLanes value 0 4 = value ∧ value.getLsbD 0 = false ∧ value.getLsbD 1 = (s.alarm k).note ∧
    (value.getLsbD 2 = true ↔ 0 < (s.alarm k).count) ∧ value.getLsbD 3 = (s.alarm k).overflow ∧
    value.getLsbD 4 = (s.bank k).overrun ∧ (value.getLsbD 5 = true ↔ k = 0 ∧ s.log.valid = true) ∧
    (value.getLsbD 6 = true ↔ k = 0 ∧ ∃ l : Line, (s.lineCtl l).state = .cut) ∧
    ∀ n : Nat, 7 ≤ n → value.getLsbD n = false

/-- R148: agent 0 clears FAULT_FIRST's valid mark and FAULT_NEXT by writing their clear positions as 1; a 0 there, and a write
of another agent, change nothing. -/
def Obligations.FaultRegistersCleared : Prop :=
  ∀ (s : State) (k : Agent) (value : Word),
    (k = 0 → value.getLsbD 0 = true →
      exec (.faultFirstWrite k value) s = .next (s.setLog { s.log with valid := false })) ∧
    (k ≠ 0 ∨ value.getLsbD 0 = false → exec (.faultFirstWrite k value) s = .next s) ∧
    (k = 0 → value.getLsbD 31 = true →
      exec (.faultNextWrite k value) s = .next (s.setLog { s.log with nextMask := 0, nextCount := 0 })) ∧
    (k ≠ 0 ∨ value.getLsbD 31 = false → exec (.faultNextWrite k value) s = .next s)

/-- R146: a fault fills FAULT_FIRST while it is not valid, and otherwise marks its kind in FAULT_NEXT and raises its count up to
255; the reset pin puts the log into its reset values, and RESET_PART leaves it. -/
def Obligations.FaultLogKeepsFirst : Prop :=
  (∀ (s : State) (kind : FaultKind) (l : Line) (place : Byte) (k : Agent),
    (s.log.valid = false →
      recordFault kind l place k s =
        s.setLog { s.log with valid := true, kind := kind, line := l, place := place, agent := k }) ∧
    (s.log.valid = true →
      recordFault kind l place k s =
        s.setLog { s.log with
          nextMask := s.log.nextMask ||| BitVec.twoPow 7 kind.code,
          nextCount := if s.log.nextCount < 255 then s.log.nextCount + 1 else s.log.nextCount })) ∧
  ∀ s : State,
    (∃ t : State, exec .resetPin s = .next t ∧
      t.log = { valid := false, kind := .statusLost, line := 0, place := 0, agent := 0, nextMask := 0, nextCount := 0 }) ∧
    ∃ t : State, exec (.resetPart 0) s = .next t ∧ t.log = s.log

/-! ### The Station Context Cache -/

/-- R110: the lookup of an exchange, by the rows of its table. A key for which a WRITING way is reserved counts as LOADING (the
model's reading, log 6). R111, R113, R114: the way that is taken, the load it begins, and the eviction of a clean or a dirty
victim, whose write-back is handed over before the load read is asked for. R114, R116, R118: a write-back that waited enters the
posting queue: its way becomes FREE, or goes on to the load it is reserved for, and then the lookups that wait for the key written
back are made again; one that must wait once more goes behind those that began to wait after it (the model's choice, log 34). -/
def Obligations.LookupByTable : Prop :=
  (∀ (s : State) (l : Line),
    let k := s.exchKey l
    let i := setOf k
    let e := s.exch l
    let agent := (s.plan (s.walk l).holder).agent
    let reservedFor := ∃ n ∈ waysOf i, (s.way n).condition = .writing ∧ (s.way n).reserved = some k
    let loaded := fun t : State => t.setExch l { e with phase := .preparing, lookup := .load }
    let waits := (s.setCache { s.cache with
      handWaits := upd s.cache.handWaits i (s.cache.handWaits.get i ++ [l]) }).setExch l
        { e with phase := .preparing, lookup := .handover }
    let absent := s.findWay .valid k = none ∧ s.findWay .loading k = none ∧ ¬reservedFor ∧ s.findWay .writing k = none
    let noneFree := ∀ n ∈ waysOf i, (s.way n).condition ≠ .free
    (∀ n : Fin 64, s.findWay .valid k = some n → lookup l s = pinFor l n (lruNamesOther n s)) ∧
    (s.findWay .valid k = none → s.findWay .loading k ≠ none ∨ reservedFor → lookup l s = loaded s) ∧
    (s.findWay .valid k = none → s.findWay .loading k = none → ¬reservedFor → s.findWay .writing k ≠ none →
      lookup l s = waits) ∧
    (∀ n : Fin 64, absent → (waysOf i).find? (fun n => decide ((s.way n).condition = .free)) = some n →
      lookup l s = loaded (startLoad n k agent (lruNamesOther n s))) ∧
    (∀ n : Fin 64, absent → noneFree → s.victim i = some n → lookup l s = loaded (evict n k agent s)) ∧
    (absent → noneFree → s.victim i = none →
      ((∃ n ∈ waysOf i, (s.way n).condition = .writing ∧ (s.way n).pinned = false) → lookup l s = waits) ∧
      ((∀ n ∈ waysOf i, (s.way n).condition = .writing → (s.way n).pinned = true) →
        lookup l s = (s.setCache { s.cache with
          stalls := upd s.cache.stalls i (s.cache.stalls.get i ++ [l]) }).setExch l
            { e with phase := .stalled, lookup := .stalled }))) ∧
  (∀ (s : State) (i : SetIndex),
    let takable := fun n : Fin 64 => (s.way n).condition = .valid ∧ (s.way n).pinned = false
    let marked := if s.cache.lru.get i = true then way1 i else way0 i
    (takable (way0 i) → takable (way1 i) → s.victim i = some marked) ∧
    (takable (way0 i) → ¬takable (way1 i) → s.victim i = some (way0 i)) ∧
    (¬takable (way0 i) → takable (way1 i) → s.victim i = some (way1 i)) ∧
    (¬takable (way0 i) → ¬takable (way1 i) → s.victim i = none)) ∧
  (∀ (s : State) (n : Fin 64) (k : Key) (agent : Agent),
    let way := s.way n
    let u := s.setCache { s.cache with lru := upd s.cache.lru (setOfWay n) (decide (n.val % 2 = 0)) }
    let out : WriteEntry :=
      { addr := (s.driver way.key.line).setup.tableBase + BitVec.ofNat 32 ((way.key.station.toNat - 1) * 32),
        data := way.copy.bytes, agent := way.copy.owner.getD 0, writer := .cache, op := .writeBack way.key }
    let sent := handOver out u
    let freed := s.setWay n { way with
      condition := .free, copy := StationRecord.reset, dirty := false, pinned := false, reserved := none }
    lruNamesOther n s = u ∧
    freeWay n s = freed.setCache { freed.cache with lru := upd freed.cache.lru (setOfWay n) (decide (n.val % 2 = 1)) } ∧
    startLoad n k agent s = askRead
      { addr := (s.driver k.line).setup.tableBase + BitVec.ofNat 32 ((k.station.toNat - 1) * 32), length := 32,
        agent := agent, requester := .cache, op := .station k, live := true }
      (s.setWay n { condition := .loading, key := k, copy := StationRecord.reset, dirty := false, pinned := true,
                    reserved := none, loadAgent := agent }) ∧
    (way.dirty = false → evict n k agent s = startLoad n k agent u) ∧
    (way.dirty = true → s.port.takesAtOnce = true →
      evict n k agent s = startLoad n k agent (sent.setCache { sent.cache with
        writeBacks := sent.cache.writeBacks ++ [way.key] })) ∧
    (way.dirty = true → s.port.takesAtOnce = false →
      evict n k agent s = sent.setWay n { way with
        condition := .writing, pinned := true, reserved := some k, loadAgent := agent })) ∧
  ∀ (s : State) (key : Key),
    let listed := s.setCache { s.cache with writeBacks := s.cache.writeBacks ++ [key] }
    let i := setOf key
    (s.findWay .writing key = none → wayHandedOver key s = listed) ∧
    ∀ n : Fin 64, s.findWay .writing key = some n →
      ((s.way n).reserved = none → wayHandedOver key s = serveFree (setOfWay n) (freeWay n listed)) ∧
      ∀ k : Key, (s.way n).reserved = some k →
        let t := startLoad n k (s.way n).loadAgent listed
        let waiting := t.cache.handWaits.get i
        let own := waiting.filter fun l => decide (t.exchKey l = key)
        let others := waiting.filter fun l => decide (t.exchKey l ≠ key)
        wayHandedOver key s = own.foldl (fun u l => lookup l u)
          (t.setCache { t.cache with handWaits := upd t.cache.handWaits i others })

/-- R111, R112, R116: the answer to a load. An unusable record frees its way and makes the exchange that waits for it
RECORD_INVALID; a usable one makes the way VALID, with an owner that fails its test put right and logged. R67, R68, R107: what
follows for an exchange whose station's entry is pinned: the drain, the quarantine refusal, the values fixed for the exchange and
the payload read. R121: a LINE_DISABLE in WRITING_BACK then goes on, as WritebackAnswered states. -/
def Obligations.StationLoadAnswered : Prop :=
  (∀ (s : State) (r : ReadRequest) (key : Key) (n : Fin 64) (a : ReadAnswer), s.Reading r → r.op = .station key →
    a.hasLength r.length = true → s.findWay .loading key = some n →
    let u := s.afterRead
    let l := key.line
    let answers := fun t : State => exec (.stationLoadAnswer a) s = .next (advanceDisable l t) ∧
      ((s.driver l).disable ≠ .writingBack → exec (.stationLoadAnswer a) s = .next t)
    let awaited := (s.exch l).lookup = .load ∧ (s.exch l).station = key.station
    (a = .reject ∨ (∃ data : List Byte, a = .accept data ∧
        (byteAt data 0 ≠ key.station ∨ 3 < (byteAt data 1).toNat ∨ 15 < (byteAt data 0xC).toNat)) →
      (¬awaited → answers (serveFree (setOfWay n) (freeWay n u))) ∧
      (awaited → answers (serveFree (setOfWay n) (recordInvalid l (freeWay n u))))) ∧
    ∀ (data : List Byte) (st : StationState), a = .accept data → byteAt data 0 = key.station →
      stationStateOf (byteAt data 1) = some st → (byteAt data 0xC).toNat ≤ 15 →
      let loaded := stationRecordOf data st
      let agrees := ownerByteAgrees (byteAt data 3) loaded.ownerCheck
      let state := if st = .quarantined ∧ loaded.bucket ≤ (s.driver l).setup.releaseLevel then StationState.inService else st
      let copy := { (if agrees then loaded else { loaded with owner := none, ownerCheck := true }) with state := state }
      let t := (if agrees then u else u.setLog (u.log.record .contextCheck l key.station r.agent)).setWay n
        { u.way n with condition := .valid, copy := copy, dirty := !agrees || decide (state ≠ st) }
      (awaited → answers (pinFor l n t)) ∧
      (¬awaited → answers (serveStall (setOfWay n) (t.setWay n { t.way n with pinned := false })))) ∧
  (∀ (s : State) (l : Line) (n : Fin 64), s.findWay .valid (s.exchKey l) = some n →
    let d := s.driver l
    let e := s.exch l
    let way := s.way n
    let c := way.copy
    let level := c.bucket - min c.bucket (d.drainEpoch - c.drainMark).toNat
    let drained := { c with
      bucket := level, drainMark := d.drainEpoch,
      state := if c.state = .quarantined ∧ level ≤ d.setup.releaseLevel then .inService else c.state }
    let trusted := c.toggleKnown = true ∧ c.toggleEpoch = d.powerEpoch
    let pinned := s.setWay n { way with pinned := true, copy := drained, dirty := way.dirty || decide (drained ≠ c) }
    let held := { e with phase := .preparing, lookup := .none, entryHeld := true }
    (drained.state = .quarantined → pinFor l n s = enterResolving l .quarantined (pinned.setExch l held)) ∧
    (drained.state ≠ .quarantined →
      pinFor l n s = fetchPayload l (pinned.setExch l { held with
        allowance := if c.state = .absent then 1 else 1 + d.setup.retryLimit,
        sentToggle := if trusted then !c.toggle else false, fresh := decide ¬trusted,
        wakeLead := c.wakeLead.toNat }))) ∧
  ∀ (s : State) (l : Line),
    let d := (s.walk l).copy
    recordInvalid l s = enterResolving l .recordInvalid (s.setExch l { s.exch l with lookup := .none, entryHeld := false }) ∧
    (d.requestLength = 0 →
      fetchPayload l s = s.setExch l { s.exch l with phase := .budgetWait, txBuffer := [] }) ∧
    (d.requestLength ≠ 0 →
      fetchPayload l s = askRead
        { addr := d.requestAddr, length := d.requestLength, agent := (s.plan (s.walk l).holder).agent,
          requester := .engine l, op := .payload l, live := true } s)

/-- R118 to R120: the answer to a write-back takes it from the list, logs a reject, and ends the FLUSH or FLUSH_LINE whose last
write-back it was; the bank of an agent that waits for no write-back of this key or line is unchanged. R121, R137: a LINE_DISABLE
in WRITING_BACK goes on with it, and queues the epoch write when nothing of its line is left in the cache. While a way loads for
the line, or will load for it, the disable waits; then it gives up the VALID and unpinned ways of the line in the order of their
sets, a clean one freed and a dirty one written back as FlushLineGivesUpWays states, and the sets freed serve their lookups in the
order of their ways (the model's choice, log 29). -/
def Obligations.WritebackAnswered : Prop :=
  (∀ (s : State) (e : WriteEntry) (key : Key) (a : WriteAnswer), s.Writing e → e.op = .writeBack key →
    let u := s.afterWrite
    let done := fun (b : Bank) (value : Half) => { b with
      command := none, verdict := { code := .done, value := value, command := b.commandCode }, flushWait := .none }
    ∃ t : State, exec (.writebackAnswer a) s = .next (advanceDisable key.line t) ∧
      ((u.driver key.line).disable ≠ .writingBack → advanceDisable key.line t = t) ∧
      t.cache = { u.cache with writeBacks := u.cache.writeBacks.erase key } ∧
      t.log = (u.logReject a .writebackLost key.line key.station e.agent).log ∧
      (∀ (k : Agent) (own : Bool) (left counted : Nat),
        ((u.bank k).flushWait = .none → t.bank k = u.bank k) ∧
        ((u.bank k).flushWait = .station key own left → 1 < left →
          t.bank k = { u.bank k with flushWait := .station key own (left - 1) }) ∧
        ((u.bank k).flushWait = .station key own left → left ≤ 1 →
          t.bank k = done (u.bank k) (if own then (if a = .accept then 2 else 3) else 0)) ∧
        ((u.bank k).flushWait = .line key.line left counted → 1 < left →
          t.bank k = { u.bank k with flushWait := .line key.line (left - 1) counted }) ∧
        ((u.bank k).flushWait = .line key.line left counted → left ≤ 1 →
          t.bank k = done (u.bank k) (BitVec.ofNat 16 counted))) ∧
      (∀ k : Agent, (∀ (own : Bool) (left : Nat), (u.bank k).flushWait ≠ .station key own left) →
        (∀ left counted : Nat, (u.bank k).flushWait ≠ .line key.line left counted) → t.bank k = u.bank k) ∧
      t.plans = u.plans ∧ t.backlog = u.backlog ∧ t.scheds = u.scheds ∧ t.walks = u.walks ∧ t.exchs = u.exchs ∧
      t.lines = u.lines ∧ t.drivers = u.drivers ∧ t.alarms = u.alarms ∧ t.port = u.port ∧ t.pending = u.pending ∧
      t.unit.partState = u.unit.partState ∧ t.unit.workBase = u.unit.workBase) ∧
  (∀ (s : State) (l : Line), (s.driver l).disable = .writingBack → s.loadsOf l = false → s.flushable l = [] →
    (s.lineWriteBacks l = 0 →
      advanceDisable l s = handOver
        { addr := s.unit.workBase + 0x40 + BitVec.ofNat 32 (0x40 * l.val) + 0x30,
          data := wordBytes (s.driver l).drainEpoch ++ wordBytes (s.driver l).powerEpoch, agent := 0,
          writer := .driver l, op := .epochs l }
        (s.setDriver l { s.driver l with disable := .writingEpochs })) ∧
    (s.lineWriteBacks l ≠ 0 → advanceDisable l s = s)) ∧
  ∀ (s : State) (l : Line),
    let loads := ∃ n : Fin 64, ((s.way n).condition = .loading ∧ (s.way n).key.line = l) ∨
      ((s.way n).condition = .writing ∧ ∃ key : Key, (s.way n).reserved = some key ∧ key.line = l)
    let ways := (List.finRange 64).filter fun n => decide ((s.way n).key.line = l ∧ (s.way n).condition = .valid ∧
      (s.way n).pinned = false)
    let t := serveFreed ways (ways.foldl (fun t n => giveUpWay n t) s)
    let left := (t.cache.writeBacks.filter fun key => decide (key.line = l)).length +
      ((List.finRange 64).filter fun n => decide ((t.way n).key.line = l ∧ (t.way n).condition = .writing)).length
    ((s.driver l).disable ≠ .writingBack ∨ loads → advanceDisable l s = s) ∧
    ((s.driver l).disable = .writingBack → ¬loads → left ≠ 0 → advanceDisable l s = t) ∧
    ((s.driver l).disable = .writingBack → ¬loads → left = 0 → advanceDisable l s = handOver
      { addr := t.unit.workBase + 0x40 + BitVec.ofNat 32 (0x40 * l.val) + 0x30,
        data := wordBytes (t.driver l).drainEpoch ++ wordBytes (t.driver l).powerEpoch, agent := 0,
        writer := .driver l, op := .epochs l }
      (t.setDriver l { t.driver l with disable := .writingEpochs }))

/-- R119: FLUSH. A station address out of range, an entry in use or a load in progress is turned away; a clean entry is given
up at once; a dirty one is written back, and the verdict waits for the answer; a write-back on its way is waited for. -/
def Obligations.FlushGivesUpStation : Prop :=
  ∀ (s : State) (k : Agent) (l : Line) (a : Byte), s.Accepts k flushCode →
    let key : Key := { line := l, station := a }
    let own := s.keyWriteBacks key
    let waiting := fun wait : FlushWait =>
      (s.inProgress k (wordOf flushCode l a 0)).modBank k fun b => { b with flushWait := wait }
    (a = 0 ∨ 250 < a.toNat → exec (.flush k l a) s = .next (s.posted k flushCode .invalidArgument 0)) ∧
    (a ≠ 0 → a.toNat ≤ 250 →
      (∀ n : Fin 64, s.findWay .valid key = some n →
        let way := s.way n
        let out := handOver
          { addr := stationAddr (s.driver l).setup.tableBase a, data := way.copy.bytes, agent := way.copy.owner.getD 0,
            writer := .cache, op := .writeBack key } (waiting (.station key true (own + 1)))
        (way.pinned = true → exec (.flush k l a) s = .next (s.posted k flushCode .busy 0)) ∧
        (way.pinned = false → way.dirty = false →
          exec (.flush k l a) s = .next (serveFree (setOfWay n) ((freeWay n s).posted k flushCode .done 1))) ∧
        (way.pinned = false → way.dirty = true → s.port.takesAtOnce = true →
          exec (.flush k l a) s = .next (serveFree (setOfWay n) (freeWay n (listWriteBack key out)))) ∧
        (way.pinned = false → way.dirty = true → s.port.takesAtOnce = false →
          exec (.flush k l a) s = .next (out.setWay n { way with condition := .writing }))) ∧
      (s.findWay .valid key = none →
        (s.findWay .loading key ≠ none → exec (.flush k l a) s = .next (s.posted k flushCode .busy 0)) ∧
        (s.findWay .loading key = none →
          (s.findWay .writing key = none → own = 0 → exec (.flush k l a) s = .next (s.posted k flushCode .done 0)) ∧
          (s.findWay .writing key = none → own ≠ 0 →
            exec (.flush k l a) s = .next (waiting (.station key false own))) ∧
          (s.findWay .writing key ≠ none →
            exec (.flush k l a) s = .next (waiting (.station key false (own + 1)))))))

/-- R120: FLUSH_LINE gives up the VALID and unpinned ways of its line, in the order of the set numbers with way 0 before way 1, and
counts the pinned and LOADING ones in its verdict, which waits while a write-back of the line is unanswered. A clean way becomes
FREE, a dirty one is written back. R116: the sets that have a FREE way then serve their waiting lookups, in the order of the ways
(the model's choice, log 29). -/
def Obligations.FlushLineGivesUpWays : Prop :=
  (∀ (s : State) (k : Agent) (l : Line), s.Accepts k flushLineCode →
    let ways := (List.finRange 64).filter fun n => decide ((s.way n).key.line = l ∧ (s.way n).condition = .valid ∧
      (s.way n).pinned = false)
    let counted := ((List.finRange 64).filter fun n => decide ((s.way n).key.line = l ∧
      ((s.way n).condition = .loading ∨ ((s.way n).condition = .valid ∧ (s.way n).pinned = true)))).length
    let t := ways.foldl (fun t n => giveUpWay n t)
      (s.setBank k { s.bank k with command := some (wordOf flushLineCode l 0 0) })
    let left := (t.cache.writeBacks.filter fun key => decide (key.line = l)).length +
      ((List.finRange 64).filter fun n => decide ((t.way n).key.line = l ∧ (t.way n).condition = .writing)).length
    (left = 0 →
      exec (.flushLine k l) s = .next (serveFreed ways (postVerdict k .done (BitVec.ofNat 16 counted) t))) ∧
    (left ≠ 0 →
      exec (.flushLine k l) s = .next (serveFreed ways (postPending k
        (t.modBank k fun b => { b with flushWait := .line l left counted }))))) ∧
  (∀ (s : State) (l : Line) (n : Fin 64),
    let way := s.way n
    let out := handOver
      { addr := stationAddr (s.driver way.key.line).setup.tableBase way.key.station, data := way.copy.bytes,
        agent := way.copy.owner.getD 0, writer := .cache, op := .writeBack way.key } s
    (n ∈ s.flushable l ↔ way.key.line = l ∧ way.condition = .valid ∧ way.pinned = false) ∧
    (way.dirty = false → giveUpWay n s = freeWay n s) ∧
    (way.dirty = true → s.port.takesAtOnce = true → giveUpWay n s = freeWay n (listWriteBack way.key out)) ∧
    (way.dirty = true → s.port.takesAtOnce = false →
      giveUpWay n s = out.setWay n { way with condition := .writing })) ∧
  (∀ (s : State) (n : Fin 64) (ways : List (Fin 64)),
    serveFreed [] s = s ∧
    ((s.way n).condition = .free → serveFreed (n :: ways) s = serveFreed ways (serveFree (setOfWay n) s)) ∧
    ((s.way n).condition ≠ .free → serveFreed (n :: ways) s = serveFreed ways s)) ∧
  ∀ (s : State) (i : SetIndex),
    let t := serveStall i s
    (s.cache.stalls.get i = [] → t = s) ∧
    (∀ (l : Line) (rest : List Line), s.cache.stalls.get i = l :: rest →
      t = lookup l (s.setCache { s.cache with stalls := upd s.cache.stalls i rest })) ∧
    serveFree i s = (t.cache.handWaits.get i).foldl (fun u l => lookup l u)
      (t.setCache { t.cache with handWaits := upd t.cache.handWaits i [] })

/-! ### The Alarm Unit -/

/-- R139 to R141: an alarm handed off waits while the list has room and otherwise sets overflow; a free list appends the first
waiting alarm, or else writes the overflow it owes; the answers to those writes. The overflow write carries overflow set, as R141
says, also where a take has cleared overflow since it was owed; R140 says that a count word carries the state as it is held, and
that the write follows R141 there is the model's choice (log 11). R143: a list that OPEN's clearing is owed, and that has no
operation and no take, is cleared in one step, before anything else begins on it. R142: a take that waits is served first, as
AlarmsTakenRuns states. -/
def Obligations.AlarmsAppended : Prop :=
  (∀ (s : State) (k : Agent) (x : Alarm),
    let a := s.alarm k
    (a.count + a.waiting.length < 16 →
      handOffAlarm k x s = pumpList k (s.setAlarm k { a with waiting := a.waiting ++ [x] })) ∧
    (16 ≤ a.count + a.waiting.length →
      handOffAlarm k x s =
        pumpList k (s.setAlarm k { a with overflow := true, overflowOwed := a.overflowOwed || !a.overflow })) ∧
    (a.op ≠ .none → pumpList k s = s) ∧
    (a.op = .none → a.take = none → a.clearOwed = true →
      pumpList k s = handOver
        { addr := s.unit.workBase + 0x940 + BitVec.ofNat 32 (0x50 * k.val), data := [0, 0, 0, 0], agent := k,
          writer := .alarmUnit, op := .clearCount k }
        (s.setAlarm k { a with count := 0, overflow := false, op := .clearing, clearOwed := false })) ∧
    (a.op = .none → a.take = none → a.clearOwed = false →
      (∀ (y : Alarm) (rest : List Alarm), a.waiting = y :: rest →
        pumpList k s = handOver
          { addr := s.unit.workBase + 0x940 + BitVec.ofNat 32 (0x50 * k.val) + 0x10 + BitVec.ofNat 32 (4 * a.count),
            data := y.bytes, agent := k, writer := .alarmUnit, op := .alarmEntry k }
          (s.setAlarm k { a with op := .appending })) ∧
      (a.waiting = [] → a.overflowOwed = true →
        pumpList k s = handOver
          { addr := s.unit.workBase + 0x940 + BitVec.ofNat 32 (0x50 * k.val), data := countWord a.count true,
            agent := k, writer := .alarmUnit, op := .overflowCount k }
          (s.setAlarm k { a with op := .overflowWrite, overflowOwed := false })) ∧
      (a.waiting = [] → a.overflowOwed = false → pumpList k s = s))) ∧
  ∀ (s : State) (e : WriteEntry) (k : Agent), s.Writing e →
    let u := s.afterWrite
    let a := u.alarm k
    (e.op = .alarmEntry k → exec (.alarmEntryWriteAnswer .accept) s = .next (handOver
      { addr := u.unit.workBase + 0x940 + BitVec.ofNat 32 (0x50 * k.val), data := countWord (a.count + 1) a.overflow,
        agent := k, writer := .alarmUnit, op := .appendCount k } (u.setAlarm k { a with overflowOwed := false }))) ∧
    (∀ (x : Alarm) (rest : List Alarm), a.waiting = x :: rest →
      let lost := pumpList k ((u.setLog (u.log.record .alarmLost x.line x.station k)).setAlarm k
        { a with waiting := rest, op := .none })
      (e.op = .alarmEntry k → exec (.alarmEntryWriteAnswer .reject) s = .next lost) ∧
      (e.op = .appendCount k → exec (.alarmCountWriteAnswer .reject) s = .next lost) ∧
      (e.op = .appendCount k →
        exec (.alarmCountWriteAnswer .accept) s =
          .next (pumpList k (u.setAlarm k { a with waiting := rest, count := a.count + 1, op := .none })))) ∧
    (∀ answer : WriteAnswer, e.op = .overflowCount k →
      exec (.alarmCountWriteAnswer answer) s =
        .next (pumpList k ((u.logReject answer .alarmLost 0 0 k).setAlarm k { a with op := .none })))

/-- R142: ALARMS_TAKEN, from the command to its verdict: it waits for a list in use; a number above the count is refused, 0
returns the count; entries that stay are read and moved to the front, and the count word write ends the take. A take that waited
acts in the same way on the count it finds when the operation of its list ends, before a clearing that OPEN owes the list (R143),
an append or an overflow write. -/
def Obligations.AlarmsTakenRuns : Prop :=
  (∀ (s : State) (k : Agent) (n : Half), s.Accepts k alarmsTakenCode →
    let a := s.alarm k
    let t := s.inProgress k (wordOf alarmsTakenCode 0 0 n)
    let ends := fun (code : VerdictCode) (value : Half) =>
      pumpList k ((s.posted k alarmsTakenCode code value).setAlarm k { a with take := none })
    (a.op ≠ .none → exec (.alarmsTaken k n) s = .next (t.setAlarm k { a with take := some n.toNat })) ∧
    (a.op = .none →
      (a.count < n.toNat → exec (.alarmsTaken k n) s = .next (ends .invalidArgument 0)) ∧
      (n = 0 → exec (.alarmsTaken k n) s = .next (ends .done (BitVec.ofNat 16 a.count))) ∧
      (n ≠ 0 → n.toNat < a.count →
        exec (.alarmsTaken k n) s = .next (askRead
          { addr := alarmEntryAddr s.unit.workBase k n.toNat, length := 4 * (a.count - n.toNat), agent := k,
            requester := .alarmUnit, op := .takeEntries k, live := true }
          (t.setAlarm k { a with take := some n.toNat, op := .taking }))) ∧
      (n ≠ 0 → n.toNat = a.count →
        exec (.alarmsTaken k n) s = .next (handOver
          { addr := alarmListAddr s.unit.workBase k, data := countWord 0 false, agent := k, writer := .alarmUnit,
            op := .takeCount k }
          (t.setAlarm k { a with take := some n.toNat, op := .taking, overflowOwed := false }))))) ∧
  (∀ (s : State) (k : Agent) (n : Nat), (s.alarm k).op = .none → (s.alarm k).take = some n →
    let a := s.alarm k
    let b := s.bank k
    let ends := fun (code : VerdictCode) (value : Half) =>
      pumpList k ((s.setBank k { b with
        command := none, verdict := { code := code, value := value, command := b.commandCode }, flushWait := .none }).setAlarm k
          { a with take := none })
    (a.count < n → pumpList k s = ends .invalidArgument 0) ∧
    (n = 0 → pumpList k s = ends .done (BitVec.ofNat 16 a.count)) ∧
    (n ≠ 0 → n < a.count → pumpList k s = askRead
      { addr := s.unit.workBase + 0x940 + BitVec.ofNat 32 (0x50 * k.val) + 0x10 + BitVec.ofNat 32 (4 * n),
        length := 4 * (a.count - n), agent := k, requester := .alarmUnit, op := .takeEntries k, live := true }
      (s.setAlarm k { a with op := .taking })) ∧
    (n ≠ 0 → n = a.count → pumpList k s = handOver
      { addr := s.unit.workBase + 0x940 + BitVec.ofNat 32 (0x50 * k.val), data := [0, 0, 0, 0], agent := k,
        writer := .alarmUnit, op := .takeCount k }
      (s.setAlarm k { a with op := .taking, overflowOwed := false }))) ∧
  (∀ (s : State) (r : ReadRequest) (k : Agent), s.Reading r → r.op = .takeEntries k →
    let u := s.afterRead
    exec (.takeReadAnswer .reject) s =
      .next (pumpList k (postVerdict k .loadFault 1 (u.setAlarm k { u.alarm k with op := .none, take := none }))) ∧
    ∀ data : List Byte, data.length = r.length →
      exec (.takeReadAnswer (.accept data)) s = .next (handOver
        { addr := alarmEntryAddr u.unit.workBase k 0, data := moveBytes data, agent := k, writer := .alarmUnit,
          op := .takeMove k } u)) ∧
  ∀ (s : State) (e : WriteEntry) (k : Agent), s.Writing e →
    let u := s.afterWrite
    let a := u.alarm k
    let m := a.count - a.take.getD 0
    (e.op = .takeMove k →
      exec (.moveWriteAnswer .accept) s = .next (handOver
        { addr := alarmListAddr u.unit.workBase k, data := countWord m false, agent := k, writer := .alarmUnit,
          op := .takeCount k } (u.setAlarm k { a with overflowOwed := false })) ∧
      exec (.moveWriteAnswer .reject) s =
        .next (pumpList k (postVerdict k .loadFault 2 (u.setAlarm k { a with op := .none, take := none })))) ∧
    (∀ answer : WriteAnswer, e.op = .takeCount k →
      exec (.takeCountWriteAnswer answer) s =
        .next (pumpList k (postVerdict k .done (BitVec.ofNat 16 m) ((u.logReject answer .alarmLost 0 0 k).setAlarm k
          { a with count := m, overflow := false, op := .none, take := none }))))

/-! ### The walk -/

/-- R28 to R32, R35, R36: the answer to a descriptor read of a walk that fetches: a fault stops the walk; a JUMP is processed at
once, a PAUSE begins, an EXCHANGE opens a group and a CONTINUE joins it, which its JOIN flag leaves open or completes. R68: the
answer to the payload read of an exchange in PREPARING gives its transmit buffer, or stops the walk with MEMORY_REJECT. R29, R30:
the fault of a fetched descriptor. R28: a fetch asks for the descriptor, or stops the walk with the fault of the first check that
fails. R32, R39, R66: an exchange begins with a lookup, or, for a broadcast, with its payload. That its record begins with the
reset values is the model's choice (log 33). -/
def Obligations.EngineReadsAnswered : Prop :=
  (∀ (s : State) (r : ReadRequest) (l : Line), s.Reading r → r.op = .descriptor l → (s.walk l).state = .fetching →
    let u := s.afterRead
    let w := s.walk l
    let i := w.holder
    exec (.descriptorReadAnswer .reject) s = .next (select l (stopWalk l .memoryReject u)) ∧
    ∀ data : List Byte, data.length = r.length →
      let d := descriptorOf data
      let member : Member :=
        { addr := w.nextAddr, replyAddr := d.replyAddr, capacity := d.capacity, chain := d.chain, stored := 0 }
      (∀ f : FaultDetail, s.descriptorFault l d = some f →
        exec (.descriptorReadAnswer (.accept data)) s = .next (select l (stopWalk l f u))) ∧
      (s.descriptorFault l d = none →
        (d.kind = some .jump →
          exec (.descriptorReadAnswer (.accept data)) s = .next (select l ((u.setPlan i { s.plan i with
            currentAddr := d.target, completed := (s.plan i).completed + 1 }).setWalk l { w with
              state := .atBoundary, nextAddr := d.target, afterJump := true, boundaryHold := d.hold, group := [] }))) ∧
        (d.kind = some .pause →
          exec (.descriptorReadAnswer (.accept data)) s = .next (select l (u.setWalk l { w with
            state := .pausing, copy := d, afterJump := false, pause := .running d.duration }))) ∧
        (d.kind = some .exchange →
          let t := u.setWalk l { w with copy := d, group := [member] }
          (d.join = false → exec (.descriptorReadAnswer (.accept data)) s = .next (select l (beginExchange l t))) ∧
          (d.join = true →
            exec (.descriptorReadAnswer (.accept data)) s = .next (select l (fetch l
              (u.setWalk l { w with copy := d, group := [member], nextAddr := w.nextAddr + 32 }))))) ∧
        (d.kind = some .continueReply →
          let t := u.setWalk l { w with group := w.group ++ [member] }
          (d.join = false → exec (.descriptorReadAnswer (.accept data)) s = .next (select l (beginExchange l t))) ∧
          (d.join = true →
            exec (.descriptorReadAnswer (.accept data)) s = .next (select l (fetch l
              (u.setWalk l { w with group := w.group ++ [member], nextAddr := w.nextAddr + 32 }))))))) ∧
  (∀ (s : State) (r : ReadRequest) (l : Line), s.Reading r → r.op = .payload l → (s.exch l).phase = .preparing →
    let u := s.afterRead
    (∀ data : List Byte, data.length = r.length →
      exec (.payloadReadAnswer (.accept data)) s =
        .next (u.setExch l { s.exch l with phase := .budgetWait, txBuffer := data })) ∧
    exec (.payloadReadAnswer .reject) s =
      .next (afterExchange l (stopWalk l .memoryReject ((releasePin l u).modExch l Exchange.over)))) ∧
  (∀ data : List Byte,
    let d := descriptorOf data
    let kind := byteAt data 0
    let flag := (byteAt data 1).getLsbD
    (kind = 1 → d.kind = some .exchange) ∧ (kind = 2 → d.kind = some .continueReply) ∧ (kind = 3 → d.kind = some .jump) ∧
    (kind = 4 → d.kind = some .pause) ∧ (kind = 0 ∨ 4 < kind.toNat → d.kind = none) ∧
    d.chain = flag 0 ∧ d.join = flag 1 ∧ d.shortOk = flag 2 ∧ d.tolerate = flag 3 ∧ d.note = flag 4 ∧ d.claim = flag 5 ∧
    d.hold = flag 6 ∧ d.station = byteAt data 2 ∧ d.function = byteAt data 3 ∧ d.requestLength = (byteAt data 4).toNat ∧
    d.capacity = (byteAt data 5).toNat ∧ d.duration = (halfAt data 6).toNat ∧ d.requestAddr = wordAt data 8 ∧
    d.replyAddr = wordAt data 0xC ∧ d.target = wordAt data 0x10) ∧
  ∀ (s : State) (l : Line) (d : Descriptor),
    let w := s.walk l
    let p := s.plan w.holder
    let window := s.port.windows.get p.agent
    let inside := fun (a : Word) (n : Nat) =>
      n = 0 ∨ (window.base.toNat ≤ a.toNat ∧ a.toNat + n ≤ window.limit.toNat)
    let isExchange := d.kind = some .exchange
    let isContinue := d.kind = some .continueReply
    let isMember := w.group ≠ []
    let invalid := d.kind = none ∨ (isMember ∧ ¬isContinue) ∨ (isContinue ∧ ¬isMember) ∨
      (d.kind = some .jump ∧ w.afterJump = true) ∨
      ((isExchange ∨ isContinue) ∧ d.join = true ∧ d.chain = false) ∨
      (isExchange ∧ (250 < d.station.toNat ∨ (d.station = 0 ∧ d.join = true))) ∨
      (isExchange ∧ 240 < d.requestLength) ∨ ((isExchange ∨ isContinue) ∧ 240 < d.capacity) ∨
      (d.kind = some .pause ∧ (d.duration = 0 ∨ 60000 < d.duration))
    let outside := (isExchange ∧ ¬inside d.requestAddr d.requestLength) ∨
      (((isExchange ∧ d.station ≠ 0) ∨ isContinue) ∧ ¬inside d.replyAddr d.capacity)
    let shown := fun a : Word => s.setPlan w.holder { p with currentAddr := a }
    let reads := w.nextAddr.toNat % 32 = 0 ∧ inside w.nextAddr 32
    (invalid → s.descriptorFault l d = some .descriptorInvalid) ∧
    (¬invalid → outside → s.descriptorFault l d = some .window) ∧
    (¬invalid → ¬outside → s.descriptorFault l d = none) ∧
    (255 ≤ w.steps → fetch l s = stopWalk l .stepLimit (shown w.nextAddr)) ∧
    (w.steps < 255 → ¬reads → fetch l s = stopWalk l .window (shown w.nextAddr)) ∧
    (w.steps < 255 → reads →
      fetch l s = askRead
        { addr := w.nextAddr, length := 32, agent := p.agent, requester := .engine l, op := .descriptor l, live := true }
        ((shown w.nextAddr).setWalk l { w with state := .fetching, steps := w.steps + 1 })) ∧
    ∀ (m : Member) (rest : List Member), w.group = m :: rest →
      let begun := ((shown m.addr).setWalk l { w with
        state := .exchanging, afterJump := false, tally := 0, writeReject := false }).setExch l
      (w.copy.station ≠ 0 →
        beginExchange l s = lookup l (begun { Exchange.reset with phase := .preparing, station := w.copy.station })) ∧
      (w.copy.station = 0 →
        beginExchange l s = fetchPayload l (begun { Exchange.reset with
          phase := .preparing, station := 0, allowance := 1, fresh := true }))

/-- R36, R42, R43, R74: the expiries of the pause timer and of the backoff timer. A PAUSE counts as completed and takes its
note; with CHAIN the walk passes a boundary, without it the run ends. That a progress write that is due is handed over before the
selection that follows is the model's choice (log 17). -/
def Obligations.EngineTimersExpire : Prop :=
  ∀ (s : State) (l : Line),
    let w := s.walk l
    let i := w.holder
    let p := s.plan i
    let q : Plan :=
      if w.copy.note then { p with completed := p.completed + 1, notePosition := p.completed + 1, progressOwed := true }
      else { p with completed := p.completed + 1 }
    (w.state = .pausing → w.pause.isRunning = true →
      (w.copy.chain = true →
        exec (.pauseExpiry l) s = .next (select l (pumpProgress i ((s.setPlan i { q with
          currentAddr := w.nextAddr + 32 }).setWalk l { w with
            state := .atBoundary, nextAddr := w.nextAddr + 32, pause := .stopped, boundaryHold := w.copy.hold,
            group := [] })))) ∧
      (w.copy.chain = false →
        exec (.pauseExpiry l) s = .next (select l (runEnd l ((s.setPlan i { q with
          currentAddr := w.nextAddr }).setWalk l { w with pause := .stopped }))))) ∧
    ((s.exch l).phase = .backoff → (s.exch l).backoff.isRunning = true →
      exec (.backoffExpiry l) s = .next (s.setExch l { s.exch l with phase := .budgetWait, backoff := .stopped }))

/-- R39 to R41, R44, R76, R78: the answer to a reply data or result write. An answer of an exchange given up reaches its plan
alone. Otherwise the tally falls and a reject is kept, which ends storing; at tally 0 an exchange in RESOLVING ends, and the walk
decides: a HALTING plan ends, a rejected write or an untolerated failure stops the walk, and otherwise it goes on. R41, R42: with
CHAIN on the last member the walk passes a boundary on the way to the descriptor after it, without it the run ends. R136, R52: the
ending step of a LINE_DISABLE that waits, or else a selection, follows. Three points are the model's choice: that the group counts
as completed also under a HALTING plan and without NOTE (log 7), that a progress write that is due goes before the ending step and
the selection (log 17), and that what the answer brings about in the exchange goes before an older progress write that it lets go
(log 31). What the record keeps once the phase is NONE is the model's choice (log 33). -/
def Obligations.ExchangeWritesAnswered : Prop :=
  (∀ (s : State) (e : WriteEntry) (l : Line) (i : Slot) (live : Bool) (a : WriteAnswer), s.Writing e →
    let u := s.afterWrite
    let w := u.walk l
    let x := u.exch l
    let v := u.setPlan i { u.plan i with outstanding := (u.plan i).outstanding - 1 }
    let t := v.setWalk l { w with tally := w.tally - 1, writeReject := w.writeReject || decide (a = .reject) }
    let dropped := t.setExch l { x with storing := false }
    let ends := fun c : Instr =>
      (live = false → exec c s = .next (reportAfterAnswer i v)) ∧
      (live = true →
        (x.phase = .resolving → 1 < w.tally → exec c s = .next (pumpProgress i t)) ∧
        (x.phase = .resolving → w.tally ≤ 1 → exec c s = .next (pumpProgress i (exchangeEnds l t))) ∧
        (x.phase ≠ .resolving → a = .accept → exec c s = .next (pumpProgress i t)) ∧
        (x.phase ≠ .resolving → a = .reject → x.phase ≠ .onLine ∨ x.abandon = true →
          exec c s = .next (pumpProgress i dropped)) ∧
        (x.phase = .onLine → x.abandon = false → a = .reject →
          exec c s = .next (pumpProgress i (takeCharacters l (dropped.setPort (dropped.port.dropPayloadWait l))))))
    (e.op = .replyData l i live → ends (.replyDataWriteAnswer a)) ∧
    (e.op = .result l i live → ends (.resultWriteAnswer a))) ∧
  (∀ (s : State) (l : Line) (o : ExchangeOutcome) (m : Member), (s.exch l).outcome = some o →
    (s.walk l).group.getLast? = some m →
    let w := s.walk l
    let failed := o ≠ .ok ∧ o ≠ .sent ∧ w.copy.tolerate = false
    let halting := (s.plan w.holder).state = .halting
    exchangeEnds l s = afterExchange l (decideAfter l (finishGroup l ((releasePin l s).modExch l Exchange.over))) ∧
    (halting → decideAfter l s = endHolder l .halted .none s) ∧
    (¬halting → w.writeReject = true → decideAfter l s = stopWalk l .memoryReject s) ∧
    (¬halting → w.writeReject = false → failed → decideAfter l s = stopWalk l .exchangeFailed s) ∧
    (¬halting → w.writeReject = false → ¬failed → decideAfter l s = goOn l m.addr m.chain w.copy.hold s)) ∧
  ∀ (s : State) (l : Line) (last : Word) (hold : Bool),
    let w := s.walk l
    let i := w.holder
    let p := s.plan i
    goOn l last true hold s = pumpProgress i ((s.setPlan i { p with currentAddr := last + 32 }).setWalk l { w with
      state := .atBoundary, nextAddr := last + 32, boundaryHold := hold, group := [] }) ∧
    goOn l last false hold s = runEnd l (s.setPlan i { p with currentAddr := last }) ∧
    ((s.driver l).disable = .waitingExchange → afterExchange l s = endingStep l s) ∧
    ((s.driver l).disable ≠ .waitingExchange → afterExchange l s = select l s)

/-! ### Attempts -/

/-- R69, R70, R93: an attempt begins when an exchange waits for budget on a READY line whose zone admits a frame: the window
count, the attempt count and the line; nothing else of the state changes. -/
def Obligations.AttemptBegins : Prop :=
  ∀ (s : State) (l : Line),
    let d := s.driver l
    let e := s.exch l
    let w := s.walk l
    let admits := (d.zone = .cool → d.setup.coolBudget = 0 ∨ d.windowCount < d.setup.coolBudget) ∧
      (d.zone = .warm → d.setup.warmBudget = 0 ∨ d.windowCount < d.setup.warmBudget) ∧
      (d.zone = .hot → d.windowCount < d.setup.hotBudget)
    let ready := e.phase = .budgetWait ∧ (s.lineCtl l).state = .ready ∧ admits
    let begun := ((s.setDriver l { d with
      windowCount := if d.windowCount < 255 then d.windowCount + 1 else d.windowCount }).setWalk l { w with
        group := w.group.map fun m => { m with stored := 0 } }).setExch l { e with
        phase := .onLine, attempts := e.attempts + 1, retryPending := false, storing := false, taken := 0,
        finalReply := none, everySilent := if e.attempts = 0 then true else e.everySilent,
        frameBegun := e.frameBegun || decide (e.wakeLead = 0) }
    (ready → e.wakeLead = 0 →
      exec (.attemptBegin l) s =
        .next (begun.setLine l { s.lineCtl l with state := .sending, tx := .frame 1, rx := none, expected := none })) ∧
    (ready → e.wakeLead ≠ 0 →
      exec (.attemptBegin l) s =
        .next (begun.setLine l { s.lineCtl l with state := .waking, tx := .wake 1, rx := none, expected := none })) ∧
    (¬ready → exec (.attemptBegin l) s = .next s)

/-- R87, R93, R100: the characters an attempt sends, and the abort. Where the attempt is to be abandoned, the character being
sent is the last one and the abort mark of two character times follows; after it the abandonment is complete. R89, R91: the
character being sent and its levels. Three points are the model's choice: where the place in the wake lead or frame advances
(log 1), that the end of the lead or frame is taken at any place in it (log 30), and that either event ends the last character
of an attempt to be abandoned (log 20). -/
def Obligations.SendingGoesOn : Prop :=
  (∀ (s : State) (l : Line),
    let c := s.lineCtl l
    let e := s.exch l
    let aborting := s.setLine l { c with state := .aborting, tx := .none, abort := .running 2 }
    let at' := fun position : TxPosition => s.setLine l { c with tx := position }
    (c.state = .waking → e.abandon = true →
      exec (.wakeLeadSent l) s = .next aborting ∧ exec (.sentCharacterComplete l) s = .next aborting) ∧
    (c.state = .sending → e.abandon = true →
      exec (.requestFrameSent l) s = .next aborting ∧ exec (.sentCharacterComplete l) s = .next aborting) ∧
    (c.state = .waking → e.abandon = false →
      exec (.wakeLeadSent l) s = .next ((s.setLine l { c with state := .sending, tx := .frame 1 }).setExch l
        { e with frameBegun := true })) ∧
    (∀ n : Nat, c.state = .waking → e.abandon = false → c.tx = .wake n → n < e.wakeLead →
      exec (.sentCharacterComplete l) s = .next (at' (.wake (n + 1)))) ∧
    (∀ n : Nat, c.state = .sending → e.abandon = false → c.tx = .frame n → n < 7 + e.txBuffer.length →
      exec (.sentCharacterComplete l) s = .next (at' (.frame (n + 1)))) ∧
    (c.state = .sending → e.abandon = false → e.station ≠ 0 →
      exec (.requestFrameSent l) s =
        .next (s.setLine l { c with
          state := .awaiting, tx := .none, replyStart := .running (s.driver l).setup.replyStart })) ∧
    (c.state = .sending → e.abandon = false → e.station = 0 →
      exec (.requestFrameSent l) s = .next (enterResolving l .sent (enterSettling l s))) ∧
    (c.state = .aborting → c.abort.isRunning = true →
      exec (.abortExpiry l) s = .next (concludeAbandon l (enterSettling l s)))) ∧
  (∀ (s : State) (l : Line),
    let c := s.lineCtl l
    let e := s.exch l
    let parity := (s.driver l).setup.parity
    let control : Byte := (if e.sentToggle then 1 else 0) ||| (if e.fresh then 2 else 0)
    let body := [e.station, control, (s.walk l).copy.function, BitVec.ofNat 8 e.txBuffer.length] ++ e.txBuffer
    let frame := [0xD2] ++ body ++ [body.foldl (fun a b => a + b) 0, body.foldl (fun a b => a ^^^ b) 0]
    (c.tx = .none → s.sentLevels l = []) ∧
    (∀ n : Nat, c.tx = .wake n → s.sentLevels l = characterLevels parity 0x55) ∧
    (∀ (n : Nat) (b : Byte), c.tx = .frame (n + 1) → frame[n]? = some b → s.sentLevels l = characterLevels parity b)) ∧
  (∀ b : Byte,
    let level := fun i : Nat => if b.getLsbD i = true then Level.mark else Level.space
    let data := [level 0, level 1, level 2, level 3, level 4, level 5, level 6, level 7]
    characterLevels false b = .space :: data ++ [.mark] ∧
    ∃ p : Level, characterLevels true b = .space :: data ++ [p, .mark] ∧
      ((data ++ [p]).filter fun x => decide (x = .mark)).length % 2 = 0) ∧
  (List.range 8).map (fun speed => (characterTime speed false, characterTime speed true)) =
    [(33333, 36667), (16667, 18333), (8333, 9167), (4167, 4583), (2083, 2292), (1042, 1146), (521, 573), (260, 286)]

/-- R72, R73, R77, R94, R95: the end of an attempt. A silent and a broken attempt; the bucket of a failing station; quarantine at
the limit, where the result of that attempt is recorded as the final one too (the model's choice, log 24); another attempt while
the allowance lasts; otherwise RESOLVING with the outcome of the table. R78 to R81, R37, R38: RESOLVING updates the station's
entry, hands an alarm off, and queues the result writes of the group, the last member's first, which count in the tally and in
the plan's outstanding writes. -/
def Obligations.AttemptEnds : Prop :=
  (∀ (s : State) (l : Line),
    ((s.lineCtl l).state = .awaiting → (s.lineCtl l).replyStart.isRunning = true →
      exec (.replyStartTimeout l) s = .next (attemptEnds l .noReply (enterSettling l s))) ∧
    ((s.lineCtl l).state = .receiving → (s.lineCtl l).charGap.isRunning = true →
      exec (.characterGapExpiry l) s = .next (attemptEnds l .truncated (enterSettling l (emptyFifo l s))))) ∧
  (∀ (s : State) (l : Line) (r : AttemptResult),
    let d := s.driver l
    let e : Exchange := { s.exch l with
      finalResult := some r, everySilent := (s.exch l).everySilent && decide (r = .noReply), storing := false }
    let fails : Bool := decide (r ∈ [AttemptResult.noReply, .corrupt, .stale, .truncated])
    let u := if fails then changeEntry l (fun x => { x with bucket := if x.bucket < 15 then x.bucket + 1 else x.bucket })
        (s.setExch l e) else s.setExch l e
    let atLimit := ∃ x : StationRecord, u.heldCopy l = some x ∧ d.setup.quarantineLimit ≤ x.bucket
    (fails = true → atLimit →
      attemptEnds l r s = enterResolving l .quarantined (changeEntry l (fun x => { x with state := .quarantined }) u)) ∧
    (¬(fails = true ∧ atLimit) →
      (r = .busy → e.attempts < e.allowance →
        attemptEnds l r s =
          u.setExch l { e with retryPending := true, phase := .backoff, backoff := .running d.setup.busyBackoff }) ∧
      (r ∉ [.busy, .refused, .valid] → e.attempts < e.allowance →
        attemptEnds l r s = u.setExch l { e with retryPending := true, phase := .budgetWait }) ∧
      (r ∈ [.refused, .valid] ∨ e.allowance ≤ e.attempts →
        attemptEnds l r s = enterResolving l (outcomeOf (s.walk l) r e.finalReply) u))) ∧
  (∀ (w : Walk) (x : Option ValidReply) (v : ValidReply),
    outcomeOf w .refused x = .refused ∧ outcomeOf w .busy x = .busy ∧ outcomeOf w .noReply x = .noReply ∧
    outcomeOf w .corrupt x = .corrupt ∧ outcomeOf w .stale x = .stale ∧ outcomeOf w .truncated x = .truncated ∧
    outcomeOf w .overrun x = .overrun ∧ (v.length = w.capacity → outcomeOf w .valid (some v) = .ok) ∧
    (v.length < w.capacity → w.copy.shortOk = true → outcomeOf w .valid (some v) = .ok) ∧
    (v.length < w.capacity → w.copy.shortOk = false → outcomeOf w .valid (some v) = .short) ∧
    (w.capacity < v.length → outcomeOf w .valid (some v) = .long)) ∧
  (∀ (s : State) (l : Line) (o : ExchangeOutcome),
    ((enterResolving l o s).exch l).phase = .resolving ∧ ((enterResolving l o s).exch l).outcome = some o ∧
      ((enterResolving l o s).walk l).tally = (s.walk l).tally + (s.walk l).group.length ∧
      enterResolving l o s = queueResults l o (alarmHandOff l (stationUpdate l o
        (s.setExch l { s.exch l with phase := .resolving, outcome := some o })))) ∧
  (∀ (s : State) (l : Line) (o : ExchangeOutcome),
    let e := s.exch l
    let saturating := fun n : Half => if n = 0xFFFF then n else n + 1
    let agent := (s.plan (s.walk l).holder).agent
    let claims := o = .ok ∧ (s.walk l).copy.claim = true
    (e.entryHeld = false → s.heldWay l = none) ∧
    (e.entryHeld = true → s.heldWay l = s.findWay .valid { line := l, station := e.station }) ∧
    (s.heldWay l = none → stationUpdate l o s = s ∧ alarmHandOff l s = s) ∧
    ∀ n : Fin 64, s.heldWay l = some n →
      let way := s.way n
      let c := way.copy
      stationUpdate l o s = s.setWay n { way with
        dirty := true,
        copy := { c with
          exchanges := saturating c.exchanges,
          failures := if o = .ok ∨ o = .sent then c.failures else saturating c.failures,
          lastStatus := if e.anyValid then (e.lastValid.map (·.status)).getD c.lastStatus else c.lastStatus,
          state := if c.state = .quarantined then .quarantined else if e.anyValid then .inService
            else if e.everySilent = true ∧ o = .noReply then .absent else c.state,
          owner := if claims then some agent else c.owner,
          ownerCheck := if claims then decide (agent = 1 ∨ agent = 2) else c.ownerCheck,
          toggle := if e.anyValid then e.sentToggle else c.toggle,
          toggleKnown := if o = .stale then false else if e.anyValid then true else c.toggleKnown,
          toggleEpoch := if e.anyValid then (s.driver l).powerEpoch else c.toggleEpoch } } ∧
      (e.anyValid = false → alarmHandOff l s = s) ∧
      ∀ v : ValidReply, e.anyValid = true → e.lastValid = some v →
        (v.status.getLsbD 1 = true → c.alarmPending = false →
          alarmHandOff l s = handOffAlarm (c.owner.getD 0) { line := l, station := e.station, status := v.status }
            (s.setWay n { way with dirty := true, copy := { c with alarmPending := true } })) ∧
        (v.status.getLsbD 1 = true → c.alarmPending = true → alarmHandOff l s = s) ∧
        (v.status.getLsbD 1 = false →
          alarmHandOff l s = s.setWay n { way with
            dirty := way.dirty || c.alarmPending, copy := { c with alarmPending := false } })) ∧
  (∀ (s : State) (l : Line) (o : ExchangeOutcome),
    let w := s.walk l
    let e := s.exch l
    let i := w.holder
    let result := fun p : Member × Nat => ({
      addr := p.1.addr + 0x18,
      data := [if p.2 = 0 ∨ 0 < p.1.stored then o.byte else 16, BitVec.ofNat 8 e.attempts, BitVec.ofNat 8 p.1.stored,
        ((e.finalReply.map fun v => BitVec.ofNat 8 v.length).getD 0), ((e.finalReply.map fun v => v.status).getD 0),
        0, 0, 0],
      agent := (s.plan i).agent, writer := .engine l, op := .result l i true } : WriteEntry)
    queueResults l o s =
      ((s.setPort ((w.group.zipIdx.map result).reverse.foldl Port.handOver s.port)).setWalk l
        { w with tally := w.tally + w.group.length }).setPlan i
          { s.plan i with outstanding := (s.plan i).outstanding + w.group.length }) ∧
  [ExchangeOutcome.ok, .sent, .short, .long, .refused, .busy, .noReply, .corrupt, .stale, .truncated, .overrun, .quarantined,
    .recordInvalid, .cut, .abandoned].map ExchangeOutcome.byte = [1, 2, 3, 4, 5, 6, 7, 8, 9, 10, 11, 12, 13, 14, 15]

/-- R90, R94, R95, R99: what the events of the receive input do in each line state: a start bit begins a reply or its next
character; activity in SETTLING and READY holds the guard timer at its full gap; a return to mark lets it run; its expiry makes
the line READY. An input already at space then makes the line settle again (the model's choice, log 13). -/
def Obligations.LineInputEvents : Prop :=
  ∀ (s : State) (l : Line),
    let c := s.lineCtl l
    let gap := (s.driver l).setup.guardGap
    let settled := fun (input : Level) (guard : GuardTimer) => s.setLine l { c with
      input := input, state := .settling, tx := .none, rx := none, replyStart := .stopped, charGap := .stopped,
      abort := .stopped, guard := guard }
    let atSpace := s.setLine l { c with input := .space }
    (c.state = .awaiting →
      exec (.startBitConfirmed l) s = .next (s.setLine l { c with
        input := .space, state := .receiving, replyStart := .stopped, charGap := .stopped, rx := some 1 })) ∧
    (c.state = .receiving →
      exec (.startBitConfirmed l) s = .next (s.setLine l { c with input := .space, charGap := .stopped })) ∧
    (c.state = .settling ∨ c.state = .ready →
      exec (.startBitConfirmed l) s = .next (settled .space (.held gap)) ∧
        exec (.lineActivity l) s = .next (settled .space (.held gap))) ∧
    (c.state ∉ [.awaiting, .receiving, .settling, .ready] → exec (.startBitConfirmed l) s = .next atSpace) ∧
    (c.state ∉ [.settling, .ready] → exec (.lineActivity l) s = .next atSpace) ∧
    (∀ g : Nat, c.guard = .held g →
      exec (.inputReturnsToMark l) s = .next (s.setLine l { c with input := .mark, guard := .running g })) ∧
    ((∀ g : Nat, c.guard ≠ .held g) →
      exec (.inputReturnsToMark l) s = .next (s.setLine l { c with input := .mark })) ∧
    (c.state = .settling → c.guard.isRunning = true → c.input = .mark →
      exec (.guardExpiry l) s = .next (s.setLine l { c with state := .ready, guard := .stopped })) ∧
    (c.state = .settling → c.guard.isRunning = true → c.input = .space →
      exec (.guardExpiry l) s = .next (settled .space (.held gap)))

/-- R71, R90, R92, R95 to R98: a reply character. With the FIFO full the attempt ends OVERRUN; a broken character, or one that
its check refuses, ends it CORRUPT; every other character is placed in the FIFO, where the Engine takes what it can, and the
xor check takes the line to SETTLING. R75: what the Engine takes: a header character is kept, a character that is not stored is
dropped, a stored one that the posting queue cannot take waits. R96, R71: with the last character of a complete frame the attempt
ends with the judged result, and a reply that is not STALE is recorded as valid. Two points are the model's choice: a character is
received while the character gap timer runs though no start bit has come (log 21), and the Engine takes every character that it can
take in the same step (log 5). -/
def Obligations.ReplyCharacterReceived : Prop :=
  (∀ (s : State) (l : Line) (p : Nat) (data : Byte) (parity : Bool) (stop : Level),
    (s.lineCtl l).state = .receiving → (s.lineCtl l).rx = some p →
    let c : LineController := { s.lineCtl l with input := stop }
    let u := s.setLine l c
    let setup := (s.driver l).setup
    let good := stop = .mark ∧ (setup.parity = true → evenParity data parity = true)
    let fits := (p = 1 → data = 0xB4) ∧ (p = 2 → data = (s.exch l).station) ∧ (p = 5 → data.toNat ≤ 240) ∧
      (p ∉ [1, 2, 5] → ∀ n : Nat, c.expected = some n → (p + 1 = n → data = c.sum) ∧ (p = n → data = c.xor))
    let placed : LineController := { c with
      fifo := c.fifo ++ [data], rx := some (p + 1), expected := if p = 5 then some (7 + data.toNat) else c.expected,
      sum := if p = 1 then 0 else if c.inChecks p then c.sum + data else c.sum,
      xor := if p = 1 then 0 else if c.inChecks p then c.xor ^^^ data else c.xor, charGap := .running setup.charGap }
    let act := exec (.replyCharacter l data parity stop) s
    (32 ≤ c.fifo.length → act = .next (attemptEnds l .overrun (enterSettling l (emptyFifo l u)))) ∧
    (c.fifo.length < 32 → ¬(good ∧ fits) →
      act = .next (attemptEnds l .corrupt (enterSettling l (emptyFifo l u)))) ∧
    (c.fifo.length < 32 → good → fits → c.expected ≠ some p → act = .next (takeCharacters l (s.setLine l placed))) ∧
    (c.fifo.length < 32 → good → fits → c.expected = some p →
      act = .next (takeCharacters l (s.setLine l { placed with
        frameReceived := true, state := .settling, tx := .none, rx := none, replyStart := .stopped,
        charGap := .stopped, abort := .stopped, guard := .running setup.guardGap })))) ∧
  (∀ (sent : Bool) (control status : Byte),
    (control.getLsbD 0 ≠ sent → judgeReply sent control status = .stale) ∧
    (control.getLsbD 0 = sent → status.getLsbD 0 = true → judgeReply sent control status = .busy) ∧
    (control.getLsbD 0 = sent → status.getLsbD 0 = false → control.getLsbD 7 = true →
      judgeReply sent control status = .refused) ∧
    (control.getLsbD 0 = sent → status.getLsbD 0 = false → control.getLsbD 7 = false →
      judgeReply sent control status = .valid)) ∧
  (∀ (s : State) (l : Line) (n : Nat) (c : Byte) (rest : List Byte), (s.lineCtl l).fifo = c :: rest →
    let e := s.exch l
    let w := s.walk l
    let popped := s.setLine l { s.lineCtl l with fifo := rest }
    let counted := fun t : State => t.setExch l { t.exch l with taken := (t.exch l).taken + 1 }
    let payload := 5 ≤ e.taken ∧ e.taken < 5 + e.replyLength
    (¬payload → drainFifo (n + 1) l s =
      drainFifo n l (counted (popped.setExch l (e.takeHeader c w.group w.writeReject)))) ∧
    (payload → e.storing = false ∨ s.cursorAddr l = none → drainFifo (n + 1) l s = drainFifo n l (counted popped)) ∧
    ∀ addr : Word, payload → e.storing = true → s.cursorAddr l = some addr →
      let takable := s.port.canMerge l addr = true ∨ s.port.roomForPayload l = true
      (takable → drainFifo (n + 1) l s = drainFifo n l (counted (storeByte l addr c popped))) ∧
      (¬takable → drainFifo (n + 1) l s = s.setPort (s.port.waitPayload l))) ∧
  ∀ (s : State) (l : Line),
    let e := s.exch l
    let t := pumpWaiting (drainFifo 33 l s)
    let whole := (t.lineCtl l).frameReceived = true ∧ (t.lineCtl l).fifo = []
    let ended := s.setLine l { s.lineCtl l with frameReceived := false }
    let reply : ValidReply := { status := e.status, length := e.replyLength, refused := e.control.getLsbD 7 }
    ((s.lineCtl l).fifo = [] → drainFifo 33 l s = s) ∧
    (whole → takeCharacters l s = replyComplete l t) ∧ (¬whole → takeCharacters l s = t) ∧
    (judgeReply e.sentToggle e.control e.status = .stale → replyComplete l s = attemptEnds l .stale ended) ∧
    (∀ r : AttemptResult, judgeReply e.sentToggle e.control e.status = r → r ≠ .stale →
      replyComplete l s = attemptEnds l r (ended.setExch l { e with
        anyValid := true, lastValid := some reply, finalReply := some reply }))

/-- R34, R75, R163: a payload byte that is to be stored is taken from the FIFO when it can merge or become a new entry. It
merges into the tail entry, or becomes an entry that counts in the tally and in the plan's outstanding writes; the cursor and
the member's count move on. R75: what a header character fixes, and where the cursor of a stored attempt starts. R163: how a block
hands a write over, and how the writes that wait join. Three points are the model's choice (log 5): a byte that waits keeps its
place among the writers that wait and, while it is the first of them, the room; a write handed over while anything waits takes its
place behind, though there be room; and the event takes the characters behind the byte too, as far as they can be taken. -/
def Obligations.PayloadByteTaken : Prop :=
  (∀ (s : State) (l : Line) (b : Byte) (addr : Word),
    let e := s.exch l
    let w := s.walk l
    let i := w.holder
    let moved := fun t : State => (t.setExch l (e.advanceCursor w.group)).setWalk l
      { t.walk l with group := countStored w.group e.cursorMember }
    let entry : WriteEntry :=
      { addr := addr, data := [b], agent := (s.plan i).agent, writer := .engine l, op := .replyData l i true }
    let stored := e.phase = .onLine ∧ e.abandon = false ∧ 5 ≤ e.taken ∧ e.taken < 5 + e.replyLength ∧ e.storing = true ∧
      s.cursorAddr l = some addr
    let takable := s.port.canMerge l addr = true ∨ s.port.roomForPayload l = true
    (e.phase = .onLine → e.abandon = false → (s.lineCtl l).fifo = [b] → (s.lineCtl l).frameReceived = false →
      5 ≤ e.taken → e.taken < 5 + e.replyLength → e.storing = true → s.cursorAddr l = some addr →
      s.port.canMerge l addr = true ∨ s.port.roomForPayload l = true →
      exec (.payloadByteTaken l) s =
        .next (pumpWaiting ((storeByte l addr b (s.setLine l { s.lineCtl l with fifo := [] })).modExch l
          fun x => { x with taken := x.taken + 1 }))) ∧
    (stored → (s.lineCtl l).fifo ≠ [] → takable → exec (.payloadByteTaken l) s = .next (takeCharacters l s)) ∧
    (stored → ¬takable → exec (.payloadByteTaken l) s = .next s) ∧
    (s.port.canMerge l addr = true →
      storeByte l addr b s = moved (s.setPort ((s.port.mergeByte b).dropPayloadWait l))) ∧
    (s.port.canMerge l addr = false →
      storeByte l addr b s = moved (((s.setPort ((s.port.join entry).dropPayloadWait l)).setWalk l
        { w with tally := w.tally + 1 }).setPlan i { s.plan i with outstanding := (s.plan i).outstanding + 1 }))) ∧
  (∀ (e : Exchange) (c : Byte) (g : List Member) (rejected : Bool),
    let r := judgeReply e.sentToggle e.control e.status
    let stores := r ≠ .stale ∧ r ≠ .busy ∧ rejected = false
    (e.taken < 2 ∨ 4 < e.taken → e.takeHeader c g rejected = e) ∧
    (e.taken = 2 → e.takeHeader c g rejected = { e with control := c }) ∧
    (e.taken = 3 → e.takeHeader c g rejected = { e with status := c }) ∧
    (e.taken = 4 → stores → e.takeHeader c g rejected =
      { e with replyLength := c.toNat, storing := true, cursorMember := nextBuffer g 0, cursorOffset := 0 }) ∧
    (e.taken = 4 → ¬stores → e.takeHeader c g rejected = { e with replyLength := c.toNat, storing := false }) ∧
    (∀ passed empty : List Member, (∀ x ∈ empty, x.capacity = 0) →
      nextBuffer (passed ++ empty) passed.length = passed.length + empty.length ∧
      ∀ (m : Member) (after : List Member), 0 < m.capacity →
        nextBuffer (passed ++ empty ++ m :: after) passed.length = passed.length + empty.length) ∧
    ∀ (before after : List Member) (m : Member), g = before ++ m :: after → e.cursorMember = before.length →
      (e.cursorOffset + 1 < m.capacity → e.advanceCursor g = { e with cursorOffset := e.cursorOffset + 1 }) ∧
      (m.capacity ≤ e.cursorOffset + 1 →
        e.advanceCursor g = { e with cursorMember := nextBuffer g (before.length + 1), cursorOffset := 0 }) ∧
      countStored g e.cursorMember = before ++ { m with stored := m.stored + 1 } :: after ∧
      ∀ (s : State) (l : Line), s.exch l = e → (s.walk l).group = g →
        s.cursorAddr l = some (m.replyAddr + BitVec.ofNat 32 e.cursorOffset)) ∧
  (∀ (p : Port) (l : Line) (addr : Word) (b : Byte),
    (p.canMerge l addr = true ↔ ∃ (front : List WriteEntry) (t : WriteEntry) (i : Slot), p.queue = front ++ [t] ∧
      t.op = .replyData l i true ∧ ¬(p.bus = some .headWrite ∧ front = []) ∧
      t.addr + BitVec.ofNat 32 t.data.length = addr ∧ addr.toNat / 32 = t.addr.toNat / 32) ∧
    (∀ (front : List WriteEntry) (t : WriteEntry), p.queue = front ++ [t] →
      p.mergeByte b = { p with queue := front ++ [{ t with data := t.data ++ [b] }] }) ∧
    (p.roomForPayload l = true ↔ p.queue.length < 16 ∧ (p.waiting = [] ∨
      ∃ (items : List WaitItem) (others : List Waiter),
        p.waiting = { writer := .engine l, items := .payload :: items } :: others))) ∧
  (∀ (p : Port) (e : WriteEntry),
    let joined := fun waiting : List Waiter => { p with
      queue := p.queue ++ [e], waiting := waiting, preference := if p.queue.length = 11 then .writes else p.preference }
    (p.queue.length < 16 → p.waiting = [] → p.handOver e = joined []) ∧
    (16 ≤ p.queue.length ∨ p.waiting ≠ [] →
      p.handOver e = { p with waiting := addWaiting e.writer (.write e) p.waiting }) ∧
    (16 ≤ p.queue.length ∨ p.waiting = [] → p.joinWaiting = none) ∧
    ∀ (writer : Requester) (items : List WaitItem) (others : List Waiter), p.queue.length < 16 →
      (p.waiting = { writer := writer, items := .payload :: items } :: others → p.joinWaiting = none) ∧
      (p.waiting = { writer := writer, items := [.write e] } :: others → p.joinWaiting = some (e, joined others)) ∧
      (items ≠ [] → p.waiting = { writer := writer, items := .write e :: items } :: others →
        p.joinWaiting = some (e, joined (others ++ [{ writer := writer, items := items }])))) ∧
  (∀ (writer : Requester) (item : WaitItem) (before after : List Waiter), (∀ x ∈ before, x.writer ≠ writer) →
    addWaiting writer item before = before ++ [{ writer := writer, items := [item] }] ∧
    ∀ x : Waiter, x.writer = writer →
      addWaiting writer item (before ++ x :: after) = before ++ { x with items := x.items ++ [item] } :: after) ∧
  ∀ (s : State),
    pumpWaiting s = pumpWrites 16 s ∧ (s.port.joinWaiting = none → pumpWaiting s = s) ∧
    ∀ (n : Nat) (e : WriteEntry) (p : Port), s.port.joinWaiting = some (e, p) →
      (e.op.isWriteBack = false → pumpWrites (n + 1) s = pumpWrites n (s.setPort p)) ∧
      ∀ key : Key, e.op = .writeBack key → pumpWrites (n + 1) s = pumpWrites n (wayHandedOver key (s.setPort p))

/-! ### The Memory Port -/

/-- R164 to R167: what the port issues when the bus is free: by its preference a read, which is the oldest ready read of the first
requester, from the rotation position on, that has a ready one, or the head of the posting queue; the rotation position moves to
the requester after the one served. A read is ready when no entry of the queue shares a byte with it. R165: a join that brings
the queue to 12 entries and a leaving that brings it to 4 or fewer change the preference. R166: an answer that does not come in
time ends the request as a reject, for each kind of request as the row of its answer does. That the event changes nothing while
no answer is awaited is the model's choice (log 3). -/
def Obligations.PortIssues : Prop :=
  (∀ (s : State) (r : ReadRequest),
    let p := s.port
    let issued := s.setPort { p with
      bus := some (.read r), reads := p.reads.erase r, rotation := nextRequester r.requester, answerTimer := .running 2 }
    let head := s.setPort { p with bus := some .headWrite, answerTimer := .running 2 }
    (p.ready r = true ↔ ∀ e ∈ p.queue, overlaps r.addr r.length e.addr e.data.length = false) ∧
    (p.chooseRead = some r → r ∈ p.reads ∧ p.ready r = true) ∧
    (p.chooseRead = none ↔ ∀ x ∈ p.reads, p.ready x = false) ∧
    (p.bus ≠ none → exec .requestIssue s = .next s) ∧
    (p.bus = none →
      (p.chooseRead = some r → p.preference = .reads ∨ p.queue = [] → exec .requestIssue s = .next issued) ∧
      (p.queue ≠ [] → p.preference = .writes ∨ p.chooseRead = none → exec .requestIssue s = .next head) ∧
      (p.queue = [] → p.chooseRead = none → exec .requestIssue s = .next s))) ∧
  (∀ (s : State) (before after skipped rest tail : List Requester) (q n : Requester) (older younger : List ReadRequest)
    (r : ReadRequest),
    let p := s.port
    let order : List Requester := [.commandUnit, .planUnit, .engine 0, .engine 1, .engine 2, .engine 3, .cache,
      .driver 0, .driver 1, .driver 2, .driver 3, .alarmUnit]
    order = before ++ p.rotation :: after → p.rotation :: after ++ before = skipped ++ q :: rest → rest ++ skipped = n :: tail →
    (∀ x ∈ p.reads, x.requester ∈ skipped → p.ready x = false) → p.reads = older ++ r :: younger →
    (∀ x ∈ older, x.requester = q → p.ready x = false) → r.requester = q → p.ready r = true → p.bus = none →
    (p.preference = .reads ∨ p.queue = [] → exec .requestIssue s = .next (s.setPort { p with
      bus := some (.read r), reads := older ++ younger, rotation := n, answerTimer := .running 2 })) ∧
    (p.preference = .writes → p.queue ≠ [] → exec .requestIssue s = .next (s.setPort { p with
      bus := some .headWrite, answerTimer := .running 2 }))) ∧
  (∀ s : State, s.port.bus = none → (∀ x ∈ s.port.reads, s.port.ready x = false) →
    (s.port.queue ≠ [] →
      exec .requestIssue s = .next (s.setPort { s.port with bus := some .headWrite, answerTimer := .running 2 })) ∧
    (s.port.queue = [] → exec .requestIssue s = .next s)) ∧
  (∀ (a b : Word) (n m : Nat), 1 ≤ n → n ≤ 240 → 1 ≤ m → m ≤ 240 →
    (overlaps a n b m = true ↔ ∃ i j : Nat, i < n ∧ j < m ∧ a + BitVec.ofNat 32 i = b + BitVec.ofNat 32 j)) ∧
  (∀ (p : Port) (e : WriteEntry) (rest : List WriteEntry),
    p.join e = { p with
      queue := p.queue ++ [e], preference := if p.queue.length + 1 = 12 then .writes else p.preference } ∧
    (p.queue = e :: rest → p.leaveHead = { p with
      queue := rest, bus := none, answerTimer := .stopped,
      preference := if rest.length ≤ 4 then .reads else p.preference })) ∧
  (∀ s : State,
    (s.port.answerTimer = .stopped → exec .answerTimeout s = .next s) ∧
    (s.port.answerTimer.isRunning = true →
      (∀ r : ReadRequest, s.port.bus = some (.read r) →
        exec .answerTimeout s = .next (deliverRead r .reject s.afterRead) ∧
        (r.live = false → deliverRead r .reject s.afterRead = s.afterRead)) ∧
      (∀ e : WriteEntry, s.Writing e → exec .answerTimeout s = .next (deliverWrite e false s.afterWrite)) ∧
      (∀ e : WriteEntry, s.port.bus = some (.orphan e) →
        exec .answerTimeout s = .next (s.setPort { s.port with bus := none, answerTimer := .stopped })))) ∧
  ∀ s : State, s.port.answerTimer.isRunning = true →
    (∀ r : ReadRequest, s.port.bus = some (.read r) →
      (r.op = .header → exec .answerTimeout s = exec (.headerReadAnswer .reject) s) ∧
      (∀ l : Line, r.op = .setup l → exec .answerTimeout s = exec (.setupReadAnswer .reject) s) ∧
      (∀ i : Slot, r.op = .slotRecord i → exec .answerTimeout s = exec (.slotLoadAnswer .reject) s) ∧
      (∀ l : Line, r.op = .descriptor l → exec .answerTimeout s = exec (.descriptorReadAnswer .reject) s) ∧
      (∀ l : Line, r.op = .payload l → exec .answerTimeout s = exec (.payloadReadAnswer .reject) s) ∧
      (∀ key : Key, r.op = .station key → exec .answerTimeout s = exec (.stationLoadAnswer .reject) s) ∧
      (∀ k : Agent, r.op = .takeEntries k → exec .answerTimeout s = exec (.takeReadAnswer .reject) s)) ∧
    ∀ e : WriteEntry, s.Writing e →
      (∀ (l : Line) (i : Slot) (live : Bool), e.op = .replyData l i live →
        exec .answerTimeout s = exec (.replyDataWriteAnswer .reject) s) ∧
      (∀ (l : Line) (i : Slot) (live : Bool), e.op = .result l i live →
        exec .answerTimeout s = exec (.resultWriteAnswer .reject) s) ∧
      (∀ i : Slot, e.op = .progress i → exec .answerTimeout s = exec (.progressWriteAnswer .reject) s) ∧
      (∀ (i : Slot) (note : Bool), e.op = .finalStatus i note →
        exec .answerTimeout s = exec (.finalStatusWriteAnswer .reject) s) ∧
      (∀ key : Key, e.op = .writeBack key → exec .answerTimeout s = exec (.writebackAnswer .reject) s) ∧
      (∀ k : Agent,
        (e.op = .alarmEntry k → exec .answerTimeout s = exec (.alarmEntryWriteAnswer .reject) s) ∧
        (e.op = .appendCount k ∨ e.op = .overflowCount k →
          exec .answerTimeout s = exec (.alarmCountWriteAnswer .reject) s) ∧
        (e.op = .takeMove k → exec .answerTimeout s = exec (.moveWriteAnswer .reject) s) ∧
        (e.op = .takeCount k → exec .answerTimeout s = exec (.takeCountWriteAnswer .reject) s) ∧
        (e.op = .clearCount k → exec .answerTimeout s = exec (.clearCountWriteAnswer .reject) s)) ∧
      ∀ l : Line,
        (e.op = .powerEpoch l → exec .answerTimeout s = exec (.powerEpochWriteAnswer .reject) s) ∧
        (e.op = .epochs l → exec .answerTimeout s = exec (.epochWriteAnswer .reject) s)

/-! ### What every step keeps -/

/-- R20: every step keeps the law of the PENDING masks and of the backlog count. -/
def Obligations.PendingLawKept : Prop := ∀ s t : State, PendingLaw s → step s = .next t → PendingLaw t

/-- R5, R13, R21, R136, R155, R156: with the laws of the OPEN in progress, of the backlog hold and of the plans and lines, taken
together, every step keeps them. -/
def Obligations.PartLawsKept : Prop :=
  ∀ s t : State, PendingLaw s → HoldLaw s → OpenLaw s → LiveLaw s → ClosedLaw s → step s = .next t →
    PendingLaw t ∧ HoldLaw t ∧ OpenLaw t ∧ LiveLaw t ∧ ClosedLaw t

/-- R59, R72, R97, R139, R151, R163: every step keeps each capacity and each range: the alarm lists, the posting queue, the
receive FIFOs, the effective classes, the low byte of WORK_BASE and the buckets. -/
def Obligations.BoundsKept : Prop :=
  ∀ s t : State, step s = .next t →
    (AlarmRoomLaw s → AlarmRoomLaw t) ∧ (QueueLaw s → QueueLaw t) ∧ (FifoLaw s → FifoLaw t) ∧
      (ClassLaw s → ClassLaw t) ∧ (WorkBaseLaw s → WorkBaseLaw t) ∧ (BucketLaw s → BucketLaw t)

/-- The laws that every step keeps hold at reset. -/
def Obligations.LawsHoldAtReset : Prop :=
  let s := State.reset
  PendingLaw s ∧ HoldLaw s ∧ OpenLaw s ∧ LiveLaw s ∧ ClosedLaw s ∧ AlarmRoomLaw s ∧ QueueLaw s ∧ FifoLaw s ∧ ClassLaw s ∧
    WorkBaseLaw s ∧ BucketLaw s
end

