-- ==== Sys2Proof/Laws/State.lean ====
section
/-! SUPPORT. One lemma for each field and each update of State: what an update leaves and what it writes. -/

namespace Sys2Proof.Machine

set_option Elab.async false

variable {α : Type} {n : Nat}

theorem get_eq (v : Vector α n) (i : Fin n) : v.get i = v[i.val] := rfl

theorem get_upd (v : Vector α n) (i j : Fin n) (x : α) : (upd v i x).get j = if j = i then x else v.get j := by
  unfold upd
  rw [get_eq, get_eq, Vector.getElem_set]
  by_cases h : i.val = j.val
  · simp [h, Fin.ext_iff]
  · simp [h, Fin.ext_iff, Ne.symm h]

@[simp] theorem get_upd_self (v : Vector α n) (i : Fin n) (x : α) : (upd v i x).get i = x := by simp [get_upd]

theorem get_upd_ne (v : Vector α n) {i j : Fin n} (x : α) (h : j ≠ i) : (upd v i x).get j = v.get j := by
  simp [get_upd, h]

@[simp] theorem upd_get (v : Vector α n) (i : Fin n) : upd v i (v.get i) = v := by
  apply Vector.ext
  intro j hj
  have := get_upd v i ⟨j, hj⟩ (v.get i)
  rw [get_eq] at this
  by_cases h : (⟨j, hj⟩ : Fin n) = i
  · subst h; simpa [get_eq] using this
  · simpa [h, get_eq] using this

@[simp] theorem upd_upd (v : Vector α n) (i : Fin n) (x y : α) : upd (upd v i x) i y = upd v i y := by
  apply Vector.ext
  intro j hj
  have h1 := get_upd (upd v i x) i ⟨j, hj⟩ y
  have h2 := get_upd v i ⟨j, hj⟩ y
  have h3 := get_upd v i ⟨j, hj⟩ x
  simp only [get_eq] at h1 h2 h3
  by_cases h : (⟨j, hj⟩ : Fin n) = i
  · simp only [h, if_true] at h1 h2; exact h1.trans h2.symm
  · simp only [h, if_false] at h1 h2 h3; exact h1.trans (h3.trans h2.symm)

namespace State

variable (s : State)

/-! ### Changes by a function are changes by the value -/

@[simp] theorem modPlan_eq (i : Slot) (f : Plan → Plan) : s.modPlan i f = s.setPlan i (f (s.plan i)) := rfl
@[simp] theorem modSched_eq (i : Line) (f : Scheduler → Scheduler) : s.modSched i f = s.setSched i (f (s.sched i)) := rfl
@[simp] theorem modWalk_eq (i : Line) (f : Walk → Walk) : s.modWalk i f = s.setWalk i (f (s.walk i)) := rfl
@[simp] theorem modExch_eq (i : Line) (f : Exchange → Exchange) : s.modExch i f = s.setExch i (f (s.exch i)) := rfl
@[simp] theorem modLine_eq (i : Line) (f : LineController → LineController) : s.modLine i f = s.setLine i (f (s.lineCtl i)) := rfl
@[simp] theorem modDriver_eq (i : Line) (f : Driver → Driver) : s.modDriver i f = s.setDriver i (f (s.driver i)) := rfl
@[simp] theorem modAlarm_eq (i : Agent) (f : AlarmList → AlarmList) : s.modAlarm i f = s.setAlarm i (f (s.alarm i)) := rfl
@[simp] theorem modBank_eq (i : Agent) (f : Bank → Bank) : s.modBank i f = s.setBank i (f (s.bank i)) := rfl
@[simp] theorem modWay_eq (i : Fin 64) (f : Way → Way) : s.modWay i f = s.setWay i (f (s.way i)) := rfl

/-! ### The fields an update leaves -/

@[simp] theorem pending_setPlan (i : Slot) (x : Plan) : (s.setPlan i x).pending = s.pending := rfl
@[simp] theorem unit_setPlan (i : Slot) (x : Plan) : (s.setPlan i x).unit = s.unit := rfl
@[simp] theorem backlog_setPlan (i : Slot) (x : Plan) : (s.setPlan i x).backlog = s.backlog := rfl
@[simp] theorem scheds_setPlan (i : Slot) (x : Plan) : (s.setPlan i x).scheds = s.scheds := rfl
@[simp] theorem walks_setPlan (i : Slot) (x : Plan) : (s.setPlan i x).walks = s.walks := rfl
@[simp] theorem exchs_setPlan (i : Slot) (x : Plan) : (s.setPlan i x).exchs = s.exchs := rfl
@[simp] theorem lines_setPlan (i : Slot) (x : Plan) : (s.setPlan i x).lines = s.lines := rfl
@[simp] theorem drivers_setPlan (i : Slot) (x : Plan) : (s.setPlan i x).drivers = s.drivers := rfl
@[simp] theorem cache_setPlan (i : Slot) (x : Plan) : (s.setPlan i x).cache = s.cache := rfl
@[simp] theorem alarms_setPlan (i : Slot) (x : Plan) : (s.setPlan i x).alarms = s.alarms := rfl
@[simp] theorem log_setPlan (i : Slot) (x : Plan) : (s.setPlan i x).log = s.log := rfl
@[simp] theorem port_setPlan (i : Slot) (x : Plan) : (s.setPlan i x).port = s.port := rfl
@[simp] theorem readData_setPlan (i : Slot) (x : Plan) : (s.setPlan i x).readData = s.readData := rfl
@[simp] theorem choices_setPlan (i : Slot) (x : Plan) : (s.setPlan i x).choices = s.choices := rfl
@[simp] theorem pending_setSched (i : Line) (x : Scheduler) : (s.setSched i x).pending = s.pending := rfl
@[simp] theorem unit_setSched (i : Line) (x : Scheduler) : (s.setSched i x).unit = s.unit := rfl
@[simp] theorem plans_setSched (i : Line) (x : Scheduler) : (s.setSched i x).plans = s.plans := rfl
@[simp] theorem backlog_setSched (i : Line) (x : Scheduler) : (s.setSched i x).backlog = s.backlog := rfl
@[simp] theorem walks_setSched (i : Line) (x : Scheduler) : (s.setSched i x).walks = s.walks := rfl
@[simp] theorem exchs_setSched (i : Line) (x : Scheduler) : (s.setSched i x).exchs = s.exchs := rfl
@[simp] theorem lines_setSched (i : Line) (x : Scheduler) : (s.setSched i x).lines = s.lines := rfl
@[simp] theorem drivers_setSched (i : Line) (x : Scheduler) : (s.setSched i x).drivers = s.drivers := rfl
@[simp] theorem cache_setSched (i : Line) (x : Scheduler) : (s.setSched i x).cache = s.cache := rfl
@[simp] theorem alarms_setSched (i : Line) (x : Scheduler) : (s.setSched i x).alarms = s.alarms := rfl
@[simp] theorem log_setSched (i : Line) (x : Scheduler) : (s.setSched i x).log = s.log := rfl
@[simp] theorem port_setSched (i : Line) (x : Scheduler) : (s.setSched i x).port = s.port := rfl
@[simp] theorem readData_setSched (i : Line) (x : Scheduler) : (s.setSched i x).readData = s.readData := rfl
@[simp] theorem choices_setSched (i : Line) (x : Scheduler) : (s.setSched i x).choices = s.choices := rfl
@[simp] theorem pending_setWalk (i : Line) (x : Walk) : (s.setWalk i x).pending = s.pending := rfl
@[simp] theorem unit_setWalk (i : Line) (x : Walk) : (s.setWalk i x).unit = s.unit := rfl
@[simp] theorem plans_setWalk (i : Line) (x : Walk) : (s.setWalk i x).plans = s.plans := rfl
@[simp] theorem backlog_setWalk (i : Line) (x : Walk) : (s.setWalk i x).backlog = s.backlog := rfl
@[simp] theorem scheds_setWalk (i : Line) (x : Walk) : (s.setWalk i x).scheds = s.scheds := rfl
@[simp] theorem exchs_setWalk (i : Line) (x : Walk) : (s.setWalk i x).exchs = s.exchs := rfl
@[simp] theorem lines_setWalk (i : Line) (x : Walk) : (s.setWalk i x).lines = s.lines := rfl
@[simp] theorem drivers_setWalk (i : Line) (x : Walk) : (s.setWalk i x).drivers = s.drivers := rfl
@[simp] theorem cache_setWalk (i : Line) (x : Walk) : (s.setWalk i x).cache = s.cache := rfl
@[simp] theorem alarms_setWalk (i : Line) (x : Walk) : (s.setWalk i x).alarms = s.alarms := rfl
@[simp] theorem log_setWalk (i : Line) (x : Walk) : (s.setWalk i x).log = s.log := rfl
@[simp] theorem port_setWalk (i : Line) (x : Walk) : (s.setWalk i x).port = s.port := rfl
@[simp] theorem readData_setWalk (i : Line) (x : Walk) : (s.setWalk i x).readData = s.readData := rfl
@[simp] theorem choices_setWalk (i : Line) (x : Walk) : (s.setWalk i x).choices = s.choices := rfl
@[simp] theorem pending_setExch (i : Line) (x : Exchange) : (s.setExch i x).pending = s.pending := rfl
@[simp] theorem unit_setExch (i : Line) (x : Exchange) : (s.setExch i x).unit = s.unit := rfl
@[simp] theorem plans_setExch (i : Line) (x : Exchange) : (s.setExch i x).plans = s.plans := rfl
@[simp] theorem backlog_setExch (i : Line) (x : Exchange) : (s.setExch i x).backlog = s.backlog := rfl
@[simp] theorem scheds_setExch (i : Line) (x : Exchange) : (s.setExch i x).scheds = s.scheds := rfl
@[simp] theorem walks_setExch (i : Line) (x : Exchange) : (s.setExch i x).walks = s.walks := rfl
@[simp] theorem lines_setExch (i : Line) (x : Exchange) : (s.setExch i x).lines = s.lines := rfl
@[simp] theorem drivers_setExch (i : Line) (x : Exchange) : (s.setExch i x).drivers = s.drivers := rfl
@[simp] theorem cache_setExch (i : Line) (x : Exchange) : (s.setExch i x).cache = s.cache := rfl
@[simp] theorem alarms_setExch (i : Line) (x : Exchange) : (s.setExch i x).alarms = s.alarms := rfl
@[simp] theorem log_setExch (i : Line) (x : Exchange) : (s.setExch i x).log = s.log := rfl
@[simp] theorem port_setExch (i : Line) (x : Exchange) : (s.setExch i x).port = s.port := rfl
@[simp] theorem readData_setExch (i : Line) (x : Exchange) : (s.setExch i x).readData = s.readData := rfl
@[simp] theorem choices_setExch (i : Line) (x : Exchange) : (s.setExch i x).choices = s.choices := rfl
@[simp] theorem pending_setLine (i : Line) (x : LineController) : (s.setLine i x).pending = s.pending := rfl
@[simp] theorem unit_setLine (i : Line) (x : LineController) : (s.setLine i x).unit = s.unit := rfl
@[simp] theorem plans_setLine (i : Line) (x : LineController) : (s.setLine i x).plans = s.plans := rfl
@[simp] theorem backlog_setLine (i : Line) (x : LineController) : (s.setLine i x).backlog = s.backlog := rfl
@[simp] theorem scheds_setLine (i : Line) (x : LineController) : (s.setLine i x).scheds = s.scheds := rfl
@[simp] theorem walks_setLine (i : Line) (x : LineController) : (s.setLine i x).walks = s.walks := rfl
@[simp] theorem exchs_setLine (i : Line) (x : LineController) : (s.setLine i x).exchs = s.exchs := rfl
@[simp] theorem drivers_setLine (i : Line) (x : LineController) : (s.setLine i x).drivers = s.drivers := rfl
@[simp] theorem cache_setLine (i : Line) (x : LineController) : (s.setLine i x).cache = s.cache := rfl
@[simp] theorem alarms_setLine (i : Line) (x : LineController) : (s.setLine i x).alarms = s.alarms := rfl
@[simp] theorem log_setLine (i : Line) (x : LineController) : (s.setLine i x).log = s.log := rfl
@[simp] theorem port_setLine (i : Line) (x : LineController) : (s.setLine i x).port = s.port := rfl
@[simp] theorem readData_setLine (i : Line) (x : LineController) : (s.setLine i x).readData = s.readData := rfl
@[simp] theorem choices_setLine (i : Line) (x : LineController) : (s.setLine i x).choices = s.choices := rfl
@[simp] theorem pending_setDriver (i : Line) (x : Driver) : (s.setDriver i x).pending = s.pending := rfl
@[simp] theorem unit_setDriver (i : Line) (x : Driver) : (s.setDriver i x).unit = s.unit := rfl
@[simp] theorem plans_setDriver (i : Line) (x : Driver) : (s.setDriver i x).plans = s.plans := rfl
@[simp] theorem backlog_setDriver (i : Line) (x : Driver) : (s.setDriver i x).backlog = s.backlog := rfl
@[simp] theorem scheds_setDriver (i : Line) (x : Driver) : (s.setDriver i x).scheds = s.scheds := rfl
@[simp] theorem walks_setDriver (i : Line) (x : Driver) : (s.setDriver i x).walks = s.walks := rfl
@[simp] theorem exchs_setDriver (i : Line) (x : Driver) : (s.setDriver i x).exchs = s.exchs := rfl
@[simp] theorem lines_setDriver (i : Line) (x : Driver) : (s.setDriver i x).lines = s.lines := rfl
@[simp] theorem cache_setDriver (i : Line) (x : Driver) : (s.setDriver i x).cache = s.cache := rfl
@[simp] theorem alarms_setDriver (i : Line) (x : Driver) : (s.setDriver i x).alarms = s.alarms := rfl
@[simp] theorem log_setDriver (i : Line) (x : Driver) : (s.setDriver i x).log = s.log := rfl
@[simp] theorem port_setDriver (i : Line) (x : Driver) : (s.setDriver i x).port = s.port := rfl
@[simp] theorem readData_setDriver (i : Line) (x : Driver) : (s.setDriver i x).readData = s.readData := rfl
@[simp] theorem choices_setDriver (i : Line) (x : Driver) : (s.setDriver i x).choices = s.choices := rfl
@[simp] theorem pending_setAlarm (i : Agent) (x : AlarmList) : (s.setAlarm i x).pending = s.pending := rfl
@[simp] theorem unit_setAlarm (i : Agent) (x : AlarmList) : (s.setAlarm i x).unit = s.unit := rfl
@[simp] theorem plans_setAlarm (i : Agent) (x : AlarmList) : (s.setAlarm i x).plans = s.plans := rfl
@[simp] theorem backlog_setAlarm (i : Agent) (x : AlarmList) : (s.setAlarm i x).backlog = s.backlog := rfl
@[simp] theorem scheds_setAlarm (i : Agent) (x : AlarmList) : (s.setAlarm i x).scheds = s.scheds := rfl
@[simp] theorem walks_setAlarm (i : Agent) (x : AlarmList) : (s.setAlarm i x).walks = s.walks := rfl
@[simp] theorem exchs_setAlarm (i : Agent) (x : AlarmList) : (s.setAlarm i x).exchs = s.exchs := rfl
@[simp] theorem lines_setAlarm (i : Agent) (x : AlarmList) : (s.setAlarm i x).lines = s.lines := rfl
@[simp] theorem drivers_setAlarm (i : Agent) (x : AlarmList) : (s.setAlarm i x).drivers = s.drivers := rfl
@[simp] theorem cache_setAlarm (i : Agent) (x : AlarmList) : (s.setAlarm i x).cache = s.cache := rfl
@[simp] theorem log_setAlarm (i : Agent) (x : AlarmList) : (s.setAlarm i x).log = s.log := rfl
@[simp] theorem port_setAlarm (i : Agent) (x : AlarmList) : (s.setAlarm i x).port = s.port := rfl
@[simp] theorem readData_setAlarm (i : Agent) (x : AlarmList) : (s.setAlarm i x).readData = s.readData := rfl
@[simp] theorem choices_setAlarm (i : Agent) (x : AlarmList) : (s.setAlarm i x).choices = s.choices := rfl
@[simp] theorem pending_setBank (i : Agent) (x : Bank) : (s.setBank i x).pending = s.pending := rfl
@[simp] theorem plans_setBank (i : Agent) (x : Bank) : (s.setBank i x).plans = s.plans := rfl
@[simp] theorem backlog_setBank (i : Agent) (x : Bank) : (s.setBank i x).backlog = s.backlog := rfl
@[simp] theorem scheds_setBank (i : Agent) (x : Bank) : (s.setBank i x).scheds = s.scheds := rfl
@[simp] theorem walks_setBank (i : Agent) (x : Bank) : (s.setBank i x).walks = s.walks := rfl
@[simp] theorem exchs_setBank (i : Agent) (x : Bank) : (s.setBank i x).exchs = s.exchs := rfl
@[simp] theorem lines_setBank (i : Agent) (x : Bank) : (s.setBank i x).lines = s.lines := rfl
@[simp] theorem drivers_setBank (i : Agent) (x : Bank) : (s.setBank i x).drivers = s.drivers := rfl
@[simp] theorem cache_setBank (i : Agent) (x : Bank) : (s.setBank i x).cache = s.cache := rfl
@[simp] theorem alarms_setBank (i : Agent) (x : Bank) : (s.setBank i x).alarms = s.alarms := rfl
@[simp] theorem log_setBank (i : Agent) (x : Bank) : (s.setBank i x).log = s.log := rfl
@[simp] theorem port_setBank (i : Agent) (x : Bank) : (s.setBank i x).port = s.port := rfl
@[simp] theorem readData_setBank (i : Agent) (x : Bank) : (s.setBank i x).readData = s.readData := rfl
@[simp] theorem choices_setBank (i : Agent) (x : Bank) : (s.setBank i x).choices = s.choices := rfl
@[simp] theorem pending_setUnit (x : CommandUnit) : (s.setUnit x).pending = s.pending := rfl
@[simp] theorem plans_setUnit (x : CommandUnit) : (s.setUnit x).plans = s.plans := rfl
@[simp] theorem backlog_setUnit (x : CommandUnit) : (s.setUnit x).backlog = s.backlog := rfl
@[simp] theorem scheds_setUnit (x : CommandUnit) : (s.setUnit x).scheds = s.scheds := rfl
@[simp] theorem walks_setUnit (x : CommandUnit) : (s.setUnit x).walks = s.walks := rfl
@[simp] theorem exchs_setUnit (x : CommandUnit) : (s.setUnit x).exchs = s.exchs := rfl
@[simp] theorem lines_setUnit (x : CommandUnit) : (s.setUnit x).lines = s.lines := rfl
@[simp] theorem drivers_setUnit (x : CommandUnit) : (s.setUnit x).drivers = s.drivers := rfl
@[simp] theorem cache_setUnit (x : CommandUnit) : (s.setUnit x).cache = s.cache := rfl
@[simp] theorem alarms_setUnit (x : CommandUnit) : (s.setUnit x).alarms = s.alarms := rfl
@[simp] theorem log_setUnit (x : CommandUnit) : (s.setUnit x).log = s.log := rfl
@[simp] theorem port_setUnit (x : CommandUnit) : (s.setUnit x).port = s.port := rfl
@[simp] theorem readData_setUnit (x : CommandUnit) : (s.setUnit x).readData = s.readData := rfl
@[simp] theorem choices_setUnit (x : CommandUnit) : (s.setUnit x).choices = s.choices := rfl
@[simp] theorem pending_setBacklog (x : Backlog) : (s.setBacklog x).pending = s.pending := rfl
@[simp] theorem unit_setBacklog (x : Backlog) : (s.setBacklog x).unit = s.unit := rfl
@[simp] theorem plans_setBacklog (x : Backlog) : (s.setBacklog x).plans = s.plans := rfl
@[simp] theorem scheds_setBacklog (x : Backlog) : (s.setBacklog x).scheds = s.scheds := rfl
@[simp] theorem walks_setBacklog (x : Backlog) : (s.setBacklog x).walks = s.walks := rfl
@[simp] theorem exchs_setBacklog (x : Backlog) : (s.setBacklog x).exchs = s.exchs := rfl
@[simp] theorem lines_setBacklog (x : Backlog) : (s.setBacklog x).lines = s.lines := rfl
@[simp] theorem drivers_setBacklog (x : Backlog) : (s.setBacklog x).drivers = s.drivers := rfl
@[simp] theorem cache_setBacklog (x : Backlog) : (s.setBacklog x).cache = s.cache := rfl
@[simp] theorem alarms_setBacklog (x : Backlog) : (s.setBacklog x).alarms = s.alarms := rfl
@[simp] theorem log_setBacklog (x : Backlog) : (s.setBacklog x).log = s.log := rfl
@[simp] theorem port_setBacklog (x : Backlog) : (s.setBacklog x).port = s.port := rfl
@[simp] theorem readData_setBacklog (x : Backlog) : (s.setBacklog x).readData = s.readData := rfl
@[simp] theorem choices_setBacklog (x : Backlog) : (s.setBacklog x).choices = s.choices := rfl
@[simp] theorem pending_setCache (x : Cache) : (s.setCache x).pending = s.pending := rfl
@[simp] theorem unit_setCache (x : Cache) : (s.setCache x).unit = s.unit := rfl
@[simp] theorem plans_setCache (x : Cache) : (s.setCache x).plans = s.plans := rfl
@[simp] theorem backlog_setCache (x : Cache) : (s.setCache x).backlog = s.backlog := rfl
@[simp] theorem scheds_setCache (x : Cache) : (s.setCache x).scheds = s.scheds := rfl
@[simp] theorem walks_setCache (x : Cache) : (s.setCache x).walks = s.walks := rfl
@[simp] theorem exchs_setCache (x : Cache) : (s.setCache x).exchs = s.exchs := rfl
@[simp] theorem lines_setCache (x : Cache) : (s.setCache x).lines = s.lines := rfl
@[simp] theorem drivers_setCache (x : Cache) : (s.setCache x).drivers = s.drivers := rfl
@[simp] theorem alarms_setCache (x : Cache) : (s.setCache x).alarms = s.alarms := rfl
@[simp] theorem log_setCache (x : Cache) : (s.setCache x).log = s.log := rfl
@[simp] theorem port_setCache (x : Cache) : (s.setCache x).port = s.port := rfl
@[simp] theorem readData_setCache (x : Cache) : (s.setCache x).readData = s.readData := rfl
@[simp] theorem choices_setCache (x : Cache) : (s.setCache x).choices = s.choices := rfl
@[simp] theorem pending_setLog (x : FaultLog) : (s.setLog x).pending = s.pending := rfl
@[simp] theorem unit_setLog (x : FaultLog) : (s.setLog x).unit = s.unit := rfl
@[simp] theorem plans_setLog (x : FaultLog) : (s.setLog x).plans = s.plans := rfl
@[simp] theorem backlog_setLog (x : FaultLog) : (s.setLog x).backlog = s.backlog := rfl
@[simp] theorem scheds_setLog (x : FaultLog) : (s.setLog x).scheds = s.scheds := rfl
@[simp] theorem walks_setLog (x : FaultLog) : (s.setLog x).walks = s.walks := rfl
@[simp] theorem exchs_setLog (x : FaultLog) : (s.setLog x).exchs = s.exchs := rfl
@[simp] theorem lines_setLog (x : FaultLog) : (s.setLog x).lines = s.lines := rfl
@[simp] theorem drivers_setLog (x : FaultLog) : (s.setLog x).drivers = s.drivers := rfl
@[simp] theorem cache_setLog (x : FaultLog) : (s.setLog x).cache = s.cache := rfl
@[simp] theorem alarms_setLog (x : FaultLog) : (s.setLog x).alarms = s.alarms := rfl
@[simp] theorem port_setLog (x : FaultLog) : (s.setLog x).port = s.port := rfl
@[simp] theorem readData_setLog (x : FaultLog) : (s.setLog x).readData = s.readData := rfl
@[simp] theorem choices_setLog (x : FaultLog) : (s.setLog x).choices = s.choices := rfl
@[simp] theorem pending_setPort (x : Port) : (s.setPort x).pending = s.pending := rfl
@[simp] theorem unit_setPort (x : Port) : (s.setPort x).unit = s.unit := rfl
@[simp] theorem plans_setPort (x : Port) : (s.setPort x).plans = s.plans := rfl
@[simp] theorem backlog_setPort (x : Port) : (s.setPort x).backlog = s.backlog := rfl
@[simp] theorem scheds_setPort (x : Port) : (s.setPort x).scheds = s.scheds := rfl
@[simp] theorem walks_setPort (x : Port) : (s.setPort x).walks = s.walks := rfl
@[simp] theorem exchs_setPort (x : Port) : (s.setPort x).exchs = s.exchs := rfl
@[simp] theorem lines_setPort (x : Port) : (s.setPort x).lines = s.lines := rfl
@[simp] theorem drivers_setPort (x : Port) : (s.setPort x).drivers = s.drivers := rfl
@[simp] theorem cache_setPort (x : Port) : (s.setPort x).cache = s.cache := rfl
@[simp] theorem alarms_setPort (x : Port) : (s.setPort x).alarms = s.alarms := rfl
@[simp] theorem log_setPort (x : Port) : (s.setPort x).log = s.log := rfl
@[simp] theorem readData_setPort (x : Port) : (s.setPort x).readData = s.readData := rfl
@[simp] theorem choices_setPort (x : Port) : (s.setPort x).choices = s.choices := rfl
@[simp] theorem pending_setReadData (x : Word) : (s.setReadData x).pending = s.pending := rfl
@[simp] theorem unit_setReadData (x : Word) : (s.setReadData x).unit = s.unit := rfl
@[simp] theorem plans_setReadData (x : Word) : (s.setReadData x).plans = s.plans := rfl
@[simp] theorem backlog_setReadData (x : Word) : (s.setReadData x).backlog = s.backlog := rfl
@[simp] theorem scheds_setReadData (x : Word) : (s.setReadData x).scheds = s.scheds := rfl
@[simp] theorem walks_setReadData (x : Word) : (s.setReadData x).walks = s.walks := rfl
@[simp] theorem exchs_setReadData (x : Word) : (s.setReadData x).exchs = s.exchs := rfl
@[simp] theorem lines_setReadData (x : Word) : (s.setReadData x).lines = s.lines := rfl
@[simp] theorem drivers_setReadData (x : Word) : (s.setReadData x).drivers = s.drivers := rfl
@[simp] theorem cache_setReadData (x : Word) : (s.setReadData x).cache = s.cache := rfl
@[simp] theorem alarms_setReadData (x : Word) : (s.setReadData x).alarms = s.alarms := rfl
@[simp] theorem log_setReadData (x : Word) : (s.setReadData x).log = s.log := rfl
@[simp] theorem port_setReadData (x : Word) : (s.setReadData x).port = s.port := rfl
@[simp] theorem choices_setReadData (x : Word) : (s.setReadData x).choices = s.choices := rfl
@[simp] theorem pending_setChoices (x : Nat) : (s.setChoices x).pending = s.pending := rfl
@[simp] theorem unit_setChoices (x : Nat) : (s.setChoices x).unit = s.unit := rfl
@[simp] theorem plans_setChoices (x : Nat) : (s.setChoices x).plans = s.plans := rfl
@[simp] theorem backlog_setChoices (x : Nat) : (s.setChoices x).backlog = s.backlog := rfl
@[simp] theorem scheds_setChoices (x : Nat) : (s.setChoices x).scheds = s.scheds := rfl
@[simp] theorem walks_setChoices (x : Nat) : (s.setChoices x).walks = s.walks := rfl
@[simp] theorem exchs_setChoices (x : Nat) : (s.setChoices x).exchs = s.exchs := rfl
@[simp] theorem lines_setChoices (x : Nat) : (s.setChoices x).lines = s.lines := rfl
@[simp] theorem drivers_setChoices (x : Nat) : (s.setChoices x).drivers = s.drivers := rfl
@[simp] theorem cache_setChoices (x : Nat) : (s.setChoices x).cache = s.cache := rfl
@[simp] theorem alarms_setChoices (x : Nat) : (s.setChoices x).alarms = s.alarms := rfl
@[simp] theorem log_setChoices (x : Nat) : (s.setChoices x).log = s.log := rfl
@[simp] theorem port_setChoices (x : Nat) : (s.setChoices x).port = s.port := rfl
@[simp] theorem readData_setChoices (x : Nat) : (s.setChoices x).readData = s.readData := rfl
@[simp] theorem unit_setPending (x : List Instr) : (s.setPending x).unit = s.unit := rfl
@[simp] theorem plans_setPending (x : List Instr) : (s.setPending x).plans = s.plans := rfl
@[simp] theorem backlog_setPending (x : List Instr) : (s.setPending x).backlog = s.backlog := rfl
@[simp] theorem scheds_setPending (x : List Instr) : (s.setPending x).scheds = s.scheds := rfl
@[simp] theorem walks_setPending (x : List Instr) : (s.setPending x).walks = s.walks := rfl
@[simp] theorem exchs_setPending (x : List Instr) : (s.setPending x).exchs = s.exchs := rfl
@[simp] theorem lines_setPending (x : List Instr) : (s.setPending x).lines = s.lines := rfl
@[simp] theorem drivers_setPending (x : List Instr) : (s.setPending x).drivers = s.drivers := rfl
@[simp] theorem cache_setPending (x : List Instr) : (s.setPending x).cache = s.cache := rfl
@[simp] theorem alarms_setPending (x : List Instr) : (s.setPending x).alarms = s.alarms := rfl
@[simp] theorem log_setPending (x : List Instr) : (s.setPending x).log = s.log := rfl
@[simp] theorem port_setPending (x : List Instr) : (s.setPending x).port = s.port := rfl
@[simp] theorem readData_setPending (x : List Instr) : (s.setPending x).readData = s.readData := rfl
@[simp] theorem choices_setPending (x : List Instr) : (s.setPending x).choices = s.choices := rfl

/-! ### The block an update writes -/

@[simp] theorem plans_setPlan (i : Slot) (x : Plan) : (s.setPlan i x).plans = upd s.plans i x := rfl
theorem plan_setPlan (i j : Slot) (x : Plan) : (s.setPlan i x).plan j = if j = i then x else s.plan j := get_upd _ _ _ _
@[simp] theorem plan_setPlan_self (i : Slot) (x : Plan) : (s.setPlan i x).plan i = x := get_upd_self _ _ _
theorem plan_setPlan_ne {i j : Slot} (x : Plan) (h : j ≠ i) : (s.setPlan i x).plan j = s.plan j := get_upd_ne _ _ h
@[simp] theorem setPlan_setPlan (i : Slot) (x y : Plan) : (s.setPlan i x).setPlan i y = s.setPlan i y := by simp [State.setPlan]
@[simp] theorem scheds_setSched (i : Line) (x : Scheduler) : (s.setSched i x).scheds = upd s.scheds i x := rfl
theorem sched_setSched (i j : Line) (x : Scheduler) : (s.setSched i x).sched j = if j = i then x else s.sched j := get_upd _ _ _ _
@[simp] theorem sched_setSched_self (i : Line) (x : Scheduler) : (s.setSched i x).sched i = x := get_upd_self _ _ _
theorem sched_setSched_ne {i j : Line} (x : Scheduler) (h : j ≠ i) : (s.setSched i x).sched j = s.sched j := get_upd_ne _ _ h
@[simp] theorem setSched_setSched (i : Line) (x y : Scheduler) : (s.setSched i x).setSched i y = s.setSched i y := by simp [State.setSched]
@[simp] theorem walks_setWalk (i : Line) (x : Walk) : (s.setWalk i x).walks = upd s.walks i x := rfl
theorem walk_setWalk (i j : Line) (x : Walk) : (s.setWalk i x).walk j = if j = i then x else s.walk j := get_upd _ _ _ _
@[simp] theorem walk_setWalk_self (i : Line) (x : Walk) : (s.setWalk i x).walk i = x := get_upd_self _ _ _
theorem walk_setWalk_ne {i j : Line} (x : Walk) (h : j ≠ i) : (s.setWalk i x).walk j = s.walk j := get_upd_ne _ _ h
@[simp] theorem setWalk_setWalk (i : Line) (x y : Walk) : (s.setWalk i x).setWalk i y = s.setWalk i y := by simp [State.setWalk]
@[simp] theorem exchs_setExch (i : Line) (x : Exchange) : (s.setExch i x).exchs = upd s.exchs i x := rfl
theorem exch_setExch (i j : Line) (x : Exchange) : (s.setExch i x).exch j = if j = i then x else s.exch j := get_upd _ _ _ _
@[simp] theorem exch_setExch_self (i : Line) (x : Exchange) : (s.setExch i x).exch i = x := get_upd_self _ _ _
theorem exch_setExch_ne {i j : Line} (x : Exchange) (h : j ≠ i) : (s.setExch i x).exch j = s.exch j := get_upd_ne _ _ h
@[simp] theorem setExch_setExch (i : Line) (x y : Exchange) : (s.setExch i x).setExch i y = s.setExch i y := by simp [State.setExch]
@[simp] theorem lines_setLine (i : Line) (x : LineController) : (s.setLine i x).lines = upd s.lines i x := rfl
theorem lineCtl_setLine (i j : Line) (x : LineController) : (s.setLine i x).lineCtl j = if j = i then x else s.lineCtl j := get_upd _ _ _ _
@[simp] theorem lineCtl_setLine_self (i : Line) (x : LineController) : (s.setLine i x).lineCtl i = x := get_upd_self _ _ _
theorem lineCtl_setLine_ne {i j : Line} (x : LineController) (h : j ≠ i) : (s.setLine i x).lineCtl j = s.lineCtl j := get_upd_ne _ _ h
@[simp] theorem setLine_setLine (i : Line) (x y : LineController) : (s.setLine i x).setLine i y = s.setLine i y := by simp [State.setLine]
@[simp] theorem drivers_setDriver (i : Line) (x : Driver) : (s.setDriver i x).drivers = upd s.drivers i x := rfl
theorem driver_setDriver (i j : Line) (x : Driver) : (s.setDriver i x).driver j = if j = i then x else s.driver j := get_upd _ _ _ _
@[simp] theorem driver_setDriver_self (i : Line) (x : Driver) : (s.setDriver i x).driver i = x := get_upd_self _ _ _
theorem driver_setDriver_ne {i j : Line} (x : Driver) (h : j ≠ i) : (s.setDriver i x).driver j = s.driver j := get_upd_ne _ _ h
@[simp] theorem setDriver_setDriver (i : Line) (x y : Driver) : (s.setDriver i x).setDriver i y = s.setDriver i y := by simp [State.setDriver]
@[simp] theorem alarms_setAlarm (i : Agent) (x : AlarmList) : (s.setAlarm i x).alarms = upd s.alarms i x := rfl
theorem alarm_setAlarm (i j : Agent) (x : AlarmList) : (s.setAlarm i x).alarm j = if j = i then x else s.alarm j := get_upd _ _ _ _
@[simp] theorem alarm_setAlarm_self (i : Agent) (x : AlarmList) : (s.setAlarm i x).alarm i = x := get_upd_self _ _ _
theorem alarm_setAlarm_ne {i j : Agent} (x : AlarmList) (h : j ≠ i) : (s.setAlarm i x).alarm j = s.alarm j := get_upd_ne _ _ h
@[simp] theorem setAlarm_setAlarm (i : Agent) (x y : AlarmList) : (s.setAlarm i x).setAlarm i y = s.setAlarm i y := by simp [State.setAlarm]
@[simp] theorem unit_setUnit (x : CommandUnit) : (s.setUnit x).unit = x := rfl
@[simp] theorem backlog_setBacklog (x : Backlog) : (s.setBacklog x).backlog = x := rfl
@[simp] theorem cache_setCache (x : Cache) : (s.setCache x).cache = x := rfl
@[simp] theorem log_setLog (x : FaultLog) : (s.setLog x).log = x := rfl
@[simp] theorem port_setPort (x : Port) : (s.setPort x).port = x := rfl
@[simp] theorem readData_setReadData (x : Word) : (s.setReadData x).readData = x := rfl
@[simp] theorem choices_setChoices (x : Nat) : (s.setChoices x).choices = x := rfl
@[simp] theorem pending_setPending (x : List Instr) : (s.setPending x).pending = x := rfl
@[simp] theorem unit_setBank (i : Agent) (x : Bank) : (s.setBank i x).unit = { s.unit with banks := upd s.unit.banks i x } := rfl
theorem bank_setBank (i j : Agent) (x : Bank) : (s.setBank i x).bank j = if j = i then x else s.bank j := get_upd _ _ _ _
@[simp] theorem bank_setBank_self (i : Agent) (x : Bank) : (s.setBank i x).bank i = x := get_upd_self _ _ _
theorem bank_setBank_ne {i j : Agent} (x : Bank) (h : j ≠ i) : (s.setBank i x).bank j = s.bank j := get_upd_ne _ _ h

/-! ### What the accessors see of an update of another block -/

@[simp] theorem sched_setPlan (i : Slot) (x : Plan) (j : Line) : (s.setPlan i x).sched j = s.sched j := rfl
@[simp] theorem walk_setPlan (i : Slot) (x : Plan) (j : Line) : (s.setPlan i x).walk j = s.walk j := rfl
@[simp] theorem exch_setPlan (i : Slot) (x : Plan) (j : Line) : (s.setPlan i x).exch j = s.exch j := rfl
@[simp] theorem lineCtl_setPlan (i : Slot) (x : Plan) (j : Line) : (s.setPlan i x).lineCtl j = s.lineCtl j := rfl
@[simp] theorem driver_setPlan (i : Slot) (x : Plan) (j : Line) : (s.setPlan i x).driver j = s.driver j := rfl
@[simp] theorem alarm_setPlan (i : Slot) (x : Plan) (j : Agent) : (s.setPlan i x).alarm j = s.alarm j := rfl
@[simp] theorem bank_setPlan (i : Slot) (x : Plan) (j : Agent) : (s.setPlan i x).bank j = s.bank j := rfl
@[simp] theorem plan_setSched (i : Line) (x : Scheduler) (j : Slot) : (s.setSched i x).plan j = s.plan j := rfl
@[simp] theorem walk_setSched (i : Line) (x : Scheduler) (j : Line) : (s.setSched i x).walk j = s.walk j := rfl
@[simp] theorem exch_setSched (i : Line) (x : Scheduler) (j : Line) : (s.setSched i x).exch j = s.exch j := rfl
@[simp] theorem lineCtl_setSched (i : Line) (x : Scheduler) (j : Line) : (s.setSched i x).lineCtl j = s.lineCtl j := rfl
@[simp] theorem driver_setSched (i : Line) (x : Scheduler) (j : Line) : (s.setSched i x).driver j = s.driver j := rfl
@[simp] theorem alarm_setSched (i : Line) (x : Scheduler) (j : Agent) : (s.setSched i x).alarm j = s.alarm j := rfl
@[simp] theorem bank_setSched (i : Line) (x : Scheduler) (j : Agent) : (s.setSched i x).bank j = s.bank j := rfl
@[simp] theorem plan_setWalk (i : Line) (x : Walk) (j : Slot) : (s.setWalk i x).plan j = s.plan j := rfl
@[simp] theorem sched_setWalk (i : Line) (x : Walk) (j : Line) : (s.setWalk i x).sched j = s.sched j := rfl
@[simp] theorem exch_setWalk (i : Line) (x : Walk) (j : Line) : (s.setWalk i x).exch j = s.exch j := rfl
@[simp] theorem lineCtl_setWalk (i : Line) (x : Walk) (j : Line) : (s.setWalk i x).lineCtl j = s.lineCtl j := rfl
@[simp] theorem driver_setWalk (i : Line) (x : Walk) (j : Line) : (s.setWalk i x).driver j = s.driver j := rfl
@[simp] theorem alarm_setWalk (i : Line) (x : Walk) (j : Agent) : (s.setWalk i x).alarm j = s.alarm j := rfl
@[simp] theorem bank_setWalk (i : Line) (x : Walk) (j : Agent) : (s.setWalk i x).bank j = s.bank j := rfl
@[simp] theorem plan_setExch (i : Line) (x : Exchange) (j : Slot) : (s.setExch i x).plan j = s.plan j := rfl
@[simp] theorem sched_setExch (i : Line) (x : Exchange) (j : Line) : (s.setExch i x).sched j = s.sched j := rfl
@[simp] theorem walk_setExch (i : Line) (x : Exchange) (j : Line) : (s.setExch i x).walk j = s.walk j := rfl
@[simp] theorem lineCtl_setExch (i : Line) (x : Exchange) (j : Line) : (s.setExch i x).lineCtl j = s.lineCtl j := rfl
@[simp] theorem driver_setExch (i : Line) (x : Exchange) (j : Line) : (s.setExch i x).driver j = s.driver j := rfl
@[simp] theorem alarm_setExch (i : Line) (x : Exchange) (j : Agent) : (s.setExch i x).alarm j = s.alarm j := rfl
@[simp] theorem bank_setExch (i : Line) (x : Exchange) (j : Agent) : (s.setExch i x).bank j = s.bank j := rfl
@[simp] theorem plan_setLine (i : Line) (x : LineController) (j : Slot) : (s.setLine i x).plan j = s.plan j := rfl
@[simp] theorem sched_setLine (i : Line) (x : LineController) (j : Line) : (s.setLine i x).sched j = s.sched j := rfl
@[simp] theorem walk_setLine (i : Line) (x : LineController) (j : Line) : (s.setLine i x).walk j = s.walk j := rfl
@[simp] theorem exch_setLine (i : Line) (x : LineController) (j : Line) : (s.setLine i x).exch j = s.exch j := rfl
@[simp] theorem driver_setLine (i : Line) (x : LineController) (j : Line) : (s.setLine i x).driver j = s.driver j := rfl
@[simp] theorem alarm_setLine (i : Line) (x : LineController) (j : Agent) : (s.setLine i x).alarm j = s.alarm j := rfl
@[simp] theorem bank_setLine (i : Line) (x : LineController) (j : Agent) : (s.setLine i x).bank j = s.bank j := rfl
@[simp] theorem plan_setDriver (i : Line) (x : Driver) (j : Slot) : (s.setDriver i x).plan j = s.plan j := rfl
@[simp] theorem sched_setDriver (i : Line) (x : Driver) (j : Line) : (s.setDriver i x).sched j = s.sched j := rfl
@[simp] theorem walk_setDriver (i : Line) (x : Driver) (j : Line) : (s.setDriver i x).walk j = s.walk j := rfl
@[simp] theorem exch_setDriver (i : Line) (x : Driver) (j : Line) : (s.setDriver i x).exch j = s.exch j := rfl
@[simp] theorem lineCtl_setDriver (i : Line) (x : Driver) (j : Line) : (s.setDriver i x).lineCtl j = s.lineCtl j := rfl
@[simp] theorem alarm_setDriver (i : Line) (x : Driver) (j : Agent) : (s.setDriver i x).alarm j = s.alarm j := rfl
@[simp] theorem bank_setDriver (i : Line) (x : Driver) (j : Agent) : (s.setDriver i x).bank j = s.bank j := rfl
@[simp] theorem plan_setAlarm (i : Agent) (x : AlarmList) (j : Slot) : (s.setAlarm i x).plan j = s.plan j := rfl
@[simp] theorem sched_setAlarm (i : Agent) (x : AlarmList) (j : Line) : (s.setAlarm i x).sched j = s.sched j := rfl
@[simp] theorem walk_setAlarm (i : Agent) (x : AlarmList) (j : Line) : (s.setAlarm i x).walk j = s.walk j := rfl
@[simp] theorem exch_setAlarm (i : Agent) (x : AlarmList) (j : Line) : (s.setAlarm i x).exch j = s.exch j := rfl
@[simp] theorem lineCtl_setAlarm (i : Agent) (x : AlarmList) (j : Line) : (s.setAlarm i x).lineCtl j = s.lineCtl j := rfl
@[simp] theorem driver_setAlarm (i : Agent) (x : AlarmList) (j : Line) : (s.setAlarm i x).driver j = s.driver j := rfl
@[simp] theorem bank_setAlarm (i : Agent) (x : AlarmList) (j : Agent) : (s.setAlarm i x).bank j = s.bank j := rfl
@[simp] theorem plan_setBank (i : Agent) (x : Bank) (j : Slot) : (s.setBank i x).plan j = s.plan j := rfl
@[simp] theorem sched_setBank (i : Agent) (x : Bank) (j : Line) : (s.setBank i x).sched j = s.sched j := rfl
@[simp] theorem walk_setBank (i : Agent) (x : Bank) (j : Line) : (s.setBank i x).walk j = s.walk j := rfl
@[simp] theorem exch_setBank (i : Agent) (x : Bank) (j : Line) : (s.setBank i x).exch j = s.exch j := rfl
@[simp] theorem lineCtl_setBank (i : Agent) (x : Bank) (j : Line) : (s.setBank i x).lineCtl j = s.lineCtl j := rfl
@[simp] theorem driver_setBank (i : Agent) (x : Bank) (j : Line) : (s.setBank i x).driver j = s.driver j := rfl
@[simp] theorem alarm_setBank (i : Agent) (x : Bank) (j : Agent) : (s.setBank i x).alarm j = s.alarm j := rfl
@[simp] theorem plan_setUnit (x : CommandUnit) (j : Slot) : (s.setUnit x).plan j = s.plan j := rfl
@[simp] theorem sched_setUnit (x : CommandUnit) (j : Line) : (s.setUnit x).sched j = s.sched j := rfl
@[simp] theorem walk_setUnit (x : CommandUnit) (j : Line) : (s.setUnit x).walk j = s.walk j := rfl
@[simp] theorem exch_setUnit (x : CommandUnit) (j : Line) : (s.setUnit x).exch j = s.exch j := rfl
@[simp] theorem lineCtl_setUnit (x : CommandUnit) (j : Line) : (s.setUnit x).lineCtl j = s.lineCtl j := rfl
@[simp] theorem driver_setUnit (x : CommandUnit) (j : Line) : (s.setUnit x).driver j = s.driver j := rfl
@[simp] theorem alarm_setUnit (x : CommandUnit) (j : Agent) : (s.setUnit x).alarm j = s.alarm j := rfl
@[simp] theorem plan_setBacklog (x : Backlog) (j : Slot) : (s.setBacklog x).plan j = s.plan j := rfl
@[simp] theorem sched_setBacklog (x : Backlog) (j : Line) : (s.setBacklog x).sched j = s.sched j := rfl
@[simp] theorem walk_setBacklog (x : Backlog) (j : Line) : (s.setBacklog x).walk j = s.walk j := rfl
@[simp] theorem exch_setBacklog (x : Backlog) (j : Line) : (s.setBacklog x).exch j = s.exch j := rfl
@[simp] theorem lineCtl_setBacklog (x : Backlog) (j : Line) : (s.setBacklog x).lineCtl j = s.lineCtl j := rfl
@[simp] theorem driver_setBacklog (x : Backlog) (j : Line) : (s.setBacklog x).driver j = s.driver j := rfl
@[simp] theorem alarm_setBacklog (x : Backlog) (j : Agent) : (s.setBacklog x).alarm j = s.alarm j := rfl
@[simp] theorem bank_setBacklog (x : Backlog) (j : Agent) : (s.setBacklog x).bank j = s.bank j := rfl
@[simp] theorem plan_setCache (x : Cache) (j : Slot) : (s.setCache x).plan j = s.plan j := rfl
@[simp] theorem sched_setCache (x : Cache) (j : Line) : (s.setCache x).sched j = s.sched j := rfl
@[simp] theorem walk_setCache (x : Cache) (j : Line) : (s.setCache x).walk j = s.walk j := rfl
@[simp] theorem exch_setCache (x : Cache) (j : Line) : (s.setCache x).exch j = s.exch j := rfl
@[simp] theorem lineCtl_setCache (x : Cache) (j : Line) : (s.setCache x).lineCtl j = s.lineCtl j := rfl
@[simp] theorem driver_setCache (x : Cache) (j : Line) : (s.setCache x).driver j = s.driver j := rfl
@[simp] theorem alarm_setCache (x : Cache) (j : Agent) : (s.setCache x).alarm j = s.alarm j := rfl
@[simp] theorem bank_setCache (x : Cache) (j : Agent) : (s.setCache x).bank j = s.bank j := rfl
@[simp] theorem plan_setLog (x : FaultLog) (j : Slot) : (s.setLog x).plan j = s.plan j := rfl
@[simp] theorem sched_setLog (x : FaultLog) (j : Line) : (s.setLog x).sched j = s.sched j := rfl
@[simp] theorem walk_setLog (x : FaultLog) (j : Line) : (s.setLog x).walk j = s.walk j := rfl
@[simp] theorem exch_setLog (x : FaultLog) (j : Line) : (s.setLog x).exch j = s.exch j := rfl
@[simp] theorem lineCtl_setLog (x : FaultLog) (j : Line) : (s.setLog x).lineCtl j = s.lineCtl j := rfl
@[simp] theorem driver_setLog (x : FaultLog) (j : Line) : (s.setLog x).driver j = s.driver j := rfl
@[simp] theorem alarm_setLog (x : FaultLog) (j : Agent) : (s.setLog x).alarm j = s.alarm j := rfl
@[simp] theorem bank_setLog (x : FaultLog) (j : Agent) : (s.setLog x).bank j = s.bank j := rfl
@[simp] theorem plan_setPort (x : Port) (j : Slot) : (s.setPort x).plan j = s.plan j := rfl
@[simp] theorem sched_setPort (x : Port) (j : Line) : (s.setPort x).sched j = s.sched j := rfl
@[simp] theorem walk_setPort (x : Port) (j : Line) : (s.setPort x).walk j = s.walk j := rfl
@[simp] theorem exch_setPort (x : Port) (j : Line) : (s.setPort x).exch j = s.exch j := rfl
@[simp] theorem lineCtl_setPort (x : Port) (j : Line) : (s.setPort x).lineCtl j = s.lineCtl j := rfl
@[simp] theorem driver_setPort (x : Port) (j : Line) : (s.setPort x).driver j = s.driver j := rfl
@[simp] theorem alarm_setPort (x : Port) (j : Agent) : (s.setPort x).alarm j = s.alarm j := rfl
@[simp] theorem bank_setPort (x : Port) (j : Agent) : (s.setPort x).bank j = s.bank j := rfl
@[simp] theorem plan_setReadData (x : Word) (j : Slot) : (s.setReadData x).plan j = s.plan j := rfl
@[simp] theorem sched_setReadData (x : Word) (j : Line) : (s.setReadData x).sched j = s.sched j := rfl
@[simp] theorem walk_setReadData (x : Word) (j : Line) : (s.setReadData x).walk j = s.walk j := rfl
@[simp] theorem exch_setReadData (x : Word) (j : Line) : (s.setReadData x).exch j = s.exch j := rfl
@[simp] theorem lineCtl_setReadData (x : Word) (j : Line) : (s.setReadData x).lineCtl j = s.lineCtl j := rfl
@[simp] theorem driver_setReadData (x : Word) (j : Line) : (s.setReadData x).driver j = s.driver j := rfl
@[simp] theorem alarm_setReadData (x : Word) (j : Agent) : (s.setReadData x).alarm j = s.alarm j := rfl
@[simp] theorem bank_setReadData (x : Word) (j : Agent) : (s.setReadData x).bank j = s.bank j := rfl
@[simp] theorem plan_setChoices (x : Nat) (j : Slot) : (s.setChoices x).plan j = s.plan j := rfl
@[simp] theorem sched_setChoices (x : Nat) (j : Line) : (s.setChoices x).sched j = s.sched j := rfl
@[simp] theorem walk_setChoices (x : Nat) (j : Line) : (s.setChoices x).walk j = s.walk j := rfl
@[simp] theorem exch_setChoices (x : Nat) (j : Line) : (s.setChoices x).exch j = s.exch j := rfl
@[simp] theorem lineCtl_setChoices (x : Nat) (j : Line) : (s.setChoices x).lineCtl j = s.lineCtl j := rfl
@[simp] theorem driver_setChoices (x : Nat) (j : Line) : (s.setChoices x).driver j = s.driver j := rfl
@[simp] theorem alarm_setChoices (x : Nat) (j : Agent) : (s.setChoices x).alarm j = s.alarm j := rfl
@[simp] theorem bank_setChoices (x : Nat) (j : Agent) : (s.setChoices x).bank j = s.bank j := rfl
@[simp] theorem plan_setPending (x : List Instr) (j : Slot) : (s.setPending x).plan j = s.plan j := rfl
@[simp] theorem sched_setPending (x : List Instr) (j : Line) : (s.setPending x).sched j = s.sched j := rfl
@[simp] theorem walk_setPending (x : List Instr) (j : Line) : (s.setPending x).walk j = s.walk j := rfl
@[simp] theorem exch_setPending (x : List Instr) (j : Line) : (s.setPending x).exch j = s.exch j := rfl
@[simp] theorem lineCtl_setPending (x : List Instr) (j : Line) : (s.setPending x).lineCtl j = s.lineCtl j := rfl
@[simp] theorem driver_setPending (x : List Instr) (j : Line) : (s.setPending x).driver j = s.driver j := rfl
@[simp] theorem alarm_setPending (x : List Instr) (j : Agent) : (s.setPending x).alarm j = s.alarm j := rfl
@[simp] theorem bank_setPending (x : List Instr) (j : Agent) : (s.setPending x).bank j = s.bank j := rfl

/-! ### Ways -/

@[simp] theorem way_setWay_self (i : Fin 64) (x : Way) : (s.setWay i x).way i = x := get_upd_self _ _ _
theorem way_setWay (i j : Fin 64) (x : Way) : (s.setWay i x).way j = if j = i then x else s.way j := get_upd _ _ _ _
theorem setWay_eq (i : Fin 64) (x : Way) :
    s.setWay i x = s.setCache { s.cache with ways := upd s.cache.ways i x } := rfl
@[simp] theorem pending_setWay (i : Fin 64) (x : Way) : (s.setWay i x).pending = s.pending := rfl
@[simp] theorem unit_setWay (i : Fin 64) (x : Way) : (s.setWay i x).unit = s.unit := rfl
@[simp] theorem plans_setWay (i : Fin 64) (x : Way) : (s.setWay i x).plans = s.plans := rfl
@[simp] theorem backlog_setWay (i : Fin 64) (x : Way) : (s.setWay i x).backlog = s.backlog := rfl
@[simp] theorem scheds_setWay (i : Fin 64) (x : Way) : (s.setWay i x).scheds = s.scheds := rfl
@[simp] theorem walks_setWay (i : Fin 64) (x : Way) : (s.setWay i x).walks = s.walks := rfl
@[simp] theorem exchs_setWay (i : Fin 64) (x : Way) : (s.setWay i x).exchs = s.exchs := rfl
@[simp] theorem lines_setWay (i : Fin 64) (x : Way) : (s.setWay i x).lines = s.lines := rfl
@[simp] theorem drivers_setWay (i : Fin 64) (x : Way) : (s.setWay i x).drivers = s.drivers := rfl
@[simp] theorem alarms_setWay (i : Fin 64) (x : Way) : (s.setWay i x).alarms = s.alarms := rfl
@[simp] theorem log_setWay (i : Fin 64) (x : Way) : (s.setWay i x).log = s.log := rfl
@[simp] theorem port_setWay (i : Fin 64) (x : Way) : (s.setWay i x).port = s.port := rfl
@[simp] theorem readData_setWay (i : Fin 64) (x : Way) : (s.setWay i x).readData = s.readData := rfl
@[simp] theorem choices_setWay (i : Fin 64) (x : Way) : (s.setWay i x).choices = s.choices := rfl
@[simp] theorem plan_setWay (i : Fin 64) (x : Way) (j : Slot) : (s.setWay i x).plan j = s.plan j := rfl
@[simp] theorem sched_setWay (i : Fin 64) (x : Way) (j : Line) : (s.setWay i x).sched j = s.sched j := rfl
@[simp] theorem walk_setWay (i : Fin 64) (x : Way) (j : Line) : (s.setWay i x).walk j = s.walk j := rfl
@[simp] theorem exch_setWay (i : Fin 64) (x : Way) (j : Line) : (s.setWay i x).exch j = s.exch j := rfl
@[simp] theorem lineCtl_setWay (i : Fin 64) (x : Way) (j : Line) : (s.setWay i x).lineCtl j = s.lineCtl j := rfl
@[simp] theorem driver_setWay (i : Fin 64) (x : Way) (j : Line) : (s.setWay i x).driver j = s.driver j := rfl
@[simp] theorem alarm_setWay (i : Fin 64) (x : Way) (j : Agent) : (s.setWay i x).alarm j = s.alarm j := rfl
@[simp] theorem bank_setWay (i : Fin 64) (x : Way) (j : Agent) : (s.setWay i x).bank j = s.bank j := rfl

end State

end Sys2Proof.Machine
end

