-- ==== Sys2Proof/Laws/Moves.lean ====
section
/-! SUPPORT. What a part of a step can do: a move changes one block's state under the conditions that hold wherever the
part makes such a change, and `Moves K` is a sequence of moves of the kinds in `K`. Each operation of Machine/ has one
lemma that says its moves; a field that no kind of `K` touches is unchanged (the frame lemmas below). -/

namespace Sys2Proof.Machine

set_option Elab.async false

/-- The kinds of moves. `count` are changes of a plan context's position and counts alone, `tally`
changes of a walk's tally alone, `life` are the four moves that change plan contexts and the backlog together. -/
inductive Kind where
  | plan
  | count
  | life
  | sched
  | walk
  | tally
  | exch
  | line
  | driver
  | cache
  | alarm
  | log
  | port
  | bank
  | unit
  | choice
  | data
  | reset
  deriving DecidableEq, Repr

/-- A change of one plan context that enters or leaves neither ENDED nor, in a CLOSED part, IDLE. -/
structure PlanChange (s : State) (p q : Plan) : Prop where
  ended : q.state = .ended ↔ p.state = .ended
  agent : p.state = .ended → q.agent = p.agent
  idle : p.state = .idle → q.state = .idle ∨ s.unit.partState = .opened
  live : q.state.isLive = true → (p.state.isLive = true ∧ q.line = p.line) ∨ (s.lineCtl q.line).state ≠ .disabled
  inRange : p.baseClass ≤ p.effClass ∧ p.effClass ≤ 7 → q.baseClass ≤ q.effClass ∧ q.effClass ≤ 7

/-- A change of a plan context that leaves its state, its request and how it ended. -/
structure PlanKept (p q : Plan) : Prop where
  state : q.state = p.state
  agent : q.agent = p.agent
  line : q.line = p.line
  baseClass : q.baseClass = p.baseClass
  effClass : q.effClass = p.effClass
  endCode : q.endCode = p.endCode
  faultDetail : q.faultDetail = p.faultDetail
  detailLine : q.detailLine = p.detailLine

/-- A change of a Line Controller that neither takes its line into service nor out of it, nor overfills its FIFO. -/
structure LineChange (c d : LineController) : Prop where
  disabled : d.state = .disabled ↔ c.state = .disabled
  fifo : d.fifo.length ≤ c.fifo.length ∨ d.fifo.length ≤ fifoCapacity

/-- Every copy in these ways has a bucket of at most 15. -/
def bucketsFit (ways : Vector Way 64) : Prop := ∀ n : Fin 64, (ways.get n).copy.bucket ≤ 15

/-- A change of the Command Unit that leaves the part state. -/
structure UnitChange (u v : CommandUnit) : Prop where
  part : v.partState = u.partState
  base : v.workBase = u.workBase ∨ v.workBase &&& 0xFF = 0
  header : ∀ h, v.openHeader = some h → u.openHeader = some h ∨ legalMarks h.lowMark h.highMark
  progress : v.openInProgress = true → u.openInProgress = true ∨ u.partState = .closed

/-- A Command Unit as a reset leaves it. -/
structure UnitReset (u v : CommandUnit) : Prop where
  part : v.partState = .closed
  base : v.workBase = u.workBase ∨ v.workBase &&& 0xFF = 0
  header : v.openHeader = none
  progress : v.openInProgress = false

/-- Slots reset one after another change only plan contexts. -/
theorem foldl_resetPlan (l : List Slot) (s : State) :
    l.foldl (fun t i => t.setPlan i Plan.reset) s =
      { s with plans := l.foldl (fun v i => upd v i Plan.reset) s.plans } := by
  induction l generalizing s with
  | nil => rfl
  | cons i l ih => simp only [List.foldl_cons, ih]; rfl

/-- The plan context of a slot after slots have been reset. -/
theorem get_foldl_resetPlan (l : List Slot) (v : Vector Plan 32) (i : Slot) :
    (l.foldl (fun v i => upd v i Plan.reset) v).get i = if i ∈ l then Plan.reset else v.get i := by
  induction l generalizing v with
  | nil => simp
  | cons j l ih =>
    rw [List.foldl_cons, ih, get_upd]
    by_cases h : i ∈ l <;> by_cases h' : i = j <;> simp [h, h']

/-- One change of the state, with the conditions that hold wherever the part makes it. -/
inductive Move : Kind → State → State → Prop where
  | plan {s : State} (i : Slot) (q : Plan) (h : PlanChange s (s.plan i) q) : Move .plan s (s.setPlan i q)
  | count {s : State} (i : Slot) (q : Plan) (h : PlanKept (s.plan i) q) : Move .count s (s.setPlan i q)
  /-- R19, R20: a plan enters ENDED. -/
  | ended {s : State} (i : Slot) (h : (s.plan i).state = .ending) :
      Move .life s ((s.setPlan i { s.plan i with state := .ended }).setBacklog
        (s.backlog.enter (decide (s.unit.partState = .opened)) (s.plan i).agent i))
  /-- R22: an ENDED plan's slot is freed. -/
  | freed {s : State} (i : Slot) (h : (s.plan i).state = .ended) :
      Move .life s ((s.setBacklog (s.backlog.leave (s.plan i).agent i)).setPlan i Plan.reset)
  /-- R23, R156: CLOSE. -/
  | closed {s : State} (h : s.closeBusy = false) :
      Move .life s (((s.endedSlots.foldl (fun t i => t.setPlan i Plan.reset) s).setBacklog
        { s.backlog with count := 0, hold := false, masks := Vector.replicate 4 0 }).setUnit
          { s.unit with partState := .closed })
  /-- R155: an OPEN completes. -/
  | opened {s : State} (h : Header) (hp : s.unit.openInProgress = true) (hh : s.unit.openHeader = some h) :
      Move .life s ((s.setBacklog { s.backlog with lowMark := h.lowMark, highMark := h.highMark, hold := false }).setUnit
        { s.unit with partState := .opened, openInProgress := false, openHeader := none, openRejected := false })
  | sched {s : State} (l : Line) (x : Scheduler) : Move .sched s (s.setSched l x)
  | walk {s : State} (l : Line) (x : Walk) : Move .walk s (s.setWalk l x)
  | tally {s : State} (l : Line) (n : Nat) : Move .tally s (s.setWalk l { s.walk l with tally := n })
  | exch {s : State} (l : Line) (x : Exchange) : Move .exch s (s.setExch l x)
  | line {s : State} (l : Line) (c : LineController) (h : LineChange (s.lineCtl l) c) : Move .line s (s.setLine l c)
  /-- R136: a line on which no plan stands any more becomes DISABLED. -/
  | lineDown {s : State} (l : Line) (c : LineController) (hd : c.state = .disabled)
      (hf : c.fifo.length ≤ (s.lineCtl l).fifo.length)
      (h : ∀ i : Slot, (s.plan i).line = l → (s.plan i).state.isLive = false) : Move .line s (s.setLine l c)
  /-- R126: a line of an OPEN part is brought up. -/
  | lineUp {s : State} (l : Line) (c : LineController) (hd : c.state ≠ .disabled)
      (hf : c.fifo.length ≤ (s.lineCtl l).fifo.length) (h : s.unit.partState = .opened) : Move .line s (s.setLine l c)
  | driver {s : State} (l : Line) (x : Driver) : Move .driver s (s.setDriver l x)
  | cache {s : State} (x : Cache) (h : bucketsFit s.cache.ways → bucketsFit x.ways) : Move .cache s (s.setCache x)
  | alarm {s : State} (k : Agent) (a : AlarmList)
      (h : a.count + a.waiting.length ≤ (s.alarm k).count + (s.alarm k).waiting.length ∨
        a.count + a.waiting.length ≤ alarmCapacity) : Move .alarm s (s.setAlarm k a)
  | log {s : State} (x : FaultLog) : Move .log s (s.setLog x)
  | port {s : State} (x : Port)
      (h : x.queue.length ≤ s.port.queue.length ∨ x.queue.length ≤ queueCapacity) : Move .port s (s.setPort x)
  | bank {s : State} (k : Agent) (x : Bank) : Move .bank s (s.setBank k x)
  | unit {s : State} (x : CommandUnit) (h : UnitChange s.unit x) : Move .unit s (s.setUnit x)
  | choice {s : State} (n : Nat) : Move .choice s (s.setChoices n)
  | data {s : State} (x : Word) : Move .data s (s.setReadData x)
  /-- R157, R158: a reset. -/
  | reset {s : State} (u : CommandUnit) (g : FaultLog) (h : UnitReset s.unit u) :
      Move .reset s (((resetBlocks s).setUnit u).setLog g)

/-- Moves one after another, each of a kind in `K`. -/
inductive Moves (K : List Kind) : State → State → Prop where
  | refl {s : State} : Moves K s s
  | snoc {s t u : State} {k : Kind} (h : Moves K s t) (hk : K.contains k = true) (m : Move k t u) : Moves K s u

namespace Moves

variable {K K' : List Kind} {s t u : State}

theorem trans (h : Moves K s t) (g : Moves K t u) : Moves K s u := by
  induction g with
  | refl => exact h
  | snoc _ hk m ih => exact ih.snoc hk m

theorem mono (h : Moves K' s t) (hK : K'.all K.contains = true) : Moves K s t := by
  induction h with
  | refl => exact .refl
  | snoc _ hk m ih =>
    rw [List.all_eq_true] at hK
    exact ih.snoc (hK _ (by simpa using hk)) m

/-- Moves of fewer kinds go on. -/
theorem via (h : Moves K s t) (g : Moves K' t u) (hK : K'.all K.contains = true := by rfl) : Moves K s u :=
  h.trans (g.mono hK)

/-- One move. -/
theorem one {k : Kind} (m : Move k s t) : Moves [k] s t := .snoc .refl (by simp) m

/-- Moves over a list. -/
theorem foldl {α : Type} (f : State → α → State) (l : List α) (s : State) (h : ∀ t x, x ∈ l → Moves K t (f t x)) :
    Moves K s (l.foldl f s) := by
  induction l generalizing s with
  | nil => exact .refl
  | cons x l ih => exact (h s x (by simp)).trans (ih _ fun t y hy => h t y (by simp [hy]))

/-! ### Frames: the fields that moves of some kinds leave -/

theorem pending_eq (h : Moves K s t) : t.pending = s.pending := by
  induction h with
  | refl => rfl
  | snoc _ _ m ih =>
    rw [← ih]
    cases m <;> first | rfl | (rw [foldl_resetPlan]; rfl)

/-- A field that no move of a kind in `K` changes is unchanged. -/
theorem frame {β : Type} (f : State → β) (h : Moves K s t)
    (hf : ∀ (k : Kind) (a b : State), K.contains k = true → Move k a b → f b = f a) : f t = f s := by
  induction h with
  | refl => rfl
  | snoc _ hk m ih => exact (hf _ _ _ hk m).trans ih

/-- None of the kinds in `K` is one of these. -/
abbrev Avoids (K bad : List Kind) : Prop := (K.all fun k => !bad.contains k) = true

theorem avoids_not_mem {bad : List Kind} (h : Avoids K bad) {k : Kind} (hk : K.contains k = true) :
    bad.contains k = false := by
  unfold Avoids at h
  rw [List.all_eq_true] at h
  simpa using h k (by simpa using hk)

theorem unit_eq (h : Moves K s t) (hK : Avoids K [.bank, .unit, .life, .reset] := by rfl) : t.unit = s.unit := by
  refine h.frame State.unit fun k a b hk m => ?_
  have hn := avoids_not_mem hK hk
  cases m <;> first | rfl | exact absurd hn (by decide)

theorem plans_eq (h : Moves K s t) (hK : Avoids K [.plan, .count, .life, .reset] := by rfl) : t.plans = s.plans := by
  refine h.frame State.plans fun k a b hk m => ?_
  have hn := avoids_not_mem hK hk
  cases m <;> first | rfl | exact absurd hn (by decide)

/-- Moves that only count leave every plan's state, request and end. -/
theorem planKept (h : Moves K s t) (i : Slot) (hK : Avoids K [.plan, .life, .reset] := by rfl) :
    PlanKept (s.plan i) (t.plan i) := by
  induction h with
  | refl => exact ⟨rfl, rfl, rfl, rfl, rfl, rfl, rfl, rfl⟩
  | @snoc a b k _ hk m ih =>
    have hn := avoids_not_mem hK hk
    cases m <;> first | exact ih | exact absurd hn (by decide) | skip
    rename_i j q hq
    by_cases h : i = j
    · subst h
      rw [show (a.setPlan i q).plan i = q from get_upd_self _ _ _]
      exact ⟨hq.state.trans ih.state, hq.agent.trans ih.agent, hq.line.trans ih.line, hq.baseClass.trans ih.baseClass,
        hq.effClass.trans ih.effClass, hq.endCode.trans ih.endCode, hq.faultDetail.trans ih.faultDetail,
        hq.detailLine.trans ih.detailLine⟩
    · rw [show (a.setPlan j q).plan i = a.plan i from get_upd_ne _ _ h]
      exact ih

theorem backlog_eq (h : Moves K s t) (hK : Avoids K [.life, .reset] := by rfl) : t.backlog = s.backlog := by
  refine h.frame State.backlog fun k a b hk m => ?_
  have hn := avoids_not_mem hK hk
  cases m <;> first | rfl | exact absurd hn (by decide)

theorem scheds_eq (h : Moves K s t) (hK : Avoids K [.sched, .reset] := by rfl) : t.scheds = s.scheds := by
  refine h.frame State.scheds fun k a b hk m => ?_
  have hn := avoids_not_mem hK hk
  cases m <;> first | rfl | exact absurd hn (by decide) | (rw [foldl_resetPlan]; rfl)

theorem walks_eq (h : Moves K s t) (hK : Avoids K [.walk, .tally, .reset] := by rfl) : t.walks = s.walks := by
  refine h.frame State.walks fun k a b hk m => ?_
  have hn := avoids_not_mem hK hk
  cases m <;> first | rfl | exact absurd hn (by decide) | (rw [foldl_resetPlan]; rfl)

/-- Moves that only count leave everything of a walk but its tally. -/
theorem walkKept (h : Moves K s t) (l : Line) (hK : Avoids K [.walk, .reset] := by rfl) :
    t.walk l = { s.walk l with tally := (t.walk l).tally } := by
  induction h with
  | refl => rfl
  | @snoc a b k _ hk m ih =>
    have hn := avoids_not_mem hK hk
    cases m <;> first | exact ih | exact absurd hn (by decide) | (rw [foldl_resetPlan]; exact ih) | skip
    rename_i j n
    by_cases h : l = j
    · subst h
      rw [show (a.setWalk l { a.walk l with tally := n }).walk l = { a.walk l with tally := n } from get_upd_self _ _ _, ih]
    · rw [show (a.setWalk j { a.walk j with tally := n }).walk l = a.walk l from get_upd_ne _ _ h]
      exact ih

/-- The base of the Work Area changes only in its own write and in the resets. -/
theorem workBase_eq (h : Moves K s t) (hK : Avoids K [.unit, .reset] := by rfl) : t.unit.workBase = s.unit.workBase := by
  refine h.frame (fun u => u.unit.workBase) fun k a b hk m => ?_
  have hn := avoids_not_mem hK hk
  cases m <;> first | rfl | exact absurd hn (by decide)

/-- The part state changes only in the moves of OPEN, CLOSE and the resets. -/
theorem partState_eq (h : Moves K s t) (hK : Avoids K [.life, .reset] := by rfl) :
    t.unit.partState = s.unit.partState := by
  induction h with
  | refl => rfl
  | snoc _ hk m ih =>
    have hn := avoids_not_mem hK hk
    rw [← ih]
    cases m <;> first | rfl | exact absurd hn (by decide) | skip
    rename_i hu
    exact hu.part

theorem exchs_eq (h : Moves K s t) (hK : Avoids K [.exch, .reset] := by rfl) : t.exchs = s.exchs := by
  refine h.frame State.exchs fun k a b hk m => ?_
  have hn := avoids_not_mem hK hk
  cases m <;> first | rfl | exact absurd hn (by decide) | (rw [foldl_resetPlan]; rfl)

theorem lines_eq (h : Moves K s t) (hK : Avoids K [.line, .reset] := by rfl) : t.lines = s.lines := by
  refine h.frame State.lines fun k a b hk m => ?_
  have hn := avoids_not_mem hK hk
  cases m <;> first | rfl | exact absurd hn (by decide) | (rw [foldl_resetPlan]; rfl)

theorem drivers_eq (h : Moves K s t) (hK : Avoids K [.driver, .reset] := by rfl) : t.drivers = s.drivers := by
  refine h.frame State.drivers fun k a b hk m => ?_
  have hn := avoids_not_mem hK hk
  cases m <;> first | rfl | exact absurd hn (by decide) | (rw [foldl_resetPlan]; rfl)

theorem cache_eq (h : Moves K s t) (hK : Avoids K [.cache, .reset] := by rfl) : t.cache = s.cache := by
  refine h.frame State.cache fun k a b hk m => ?_
  have hn := avoids_not_mem hK hk
  cases m <;> first | rfl | exact absurd hn (by decide) | (rw [foldl_resetPlan]; rfl)

theorem alarms_eq (h : Moves K s t) (hK : Avoids K [.alarm, .reset] := by rfl) : t.alarms = s.alarms := by
  refine h.frame State.alarms fun k a b hk m => ?_
  have hn := avoids_not_mem hK hk
  cases m <;> first | rfl | exact absurd hn (by decide) | (rw [foldl_resetPlan]; rfl)

theorem log_eq (h : Moves K s t) (hK : Avoids K [.log, .reset] := by rfl) : t.log = s.log := by
  refine h.frame State.log fun k a b hk m => ?_
  have hn := avoids_not_mem hK hk
  cases m <;> first | rfl | exact absurd hn (by decide) | (rw [foldl_resetPlan]; rfl)

theorem port_eq (h : Moves K s t) (hK : Avoids K [.port, .reset] := by rfl) : t.port = s.port := by
  refine h.frame State.port fun k a b hk m => ?_
  have hn := avoids_not_mem hK hk
  cases m <;> first | rfl | exact absurd hn (by decide) | (rw [foldl_resetPlan]; rfl)

theorem readData_eq (h : Moves K s t) (hK : Avoids K [.data] := by rfl) : t.readData = s.readData := by
  refine h.frame State.readData fun k a b hk m => ?_
  have hn := avoids_not_mem hK hk
  cases m <;> first | rfl | exact absurd hn (by decide) | (rw [foldl_resetPlan]; rfl)

theorem choices_eq (h : Moves K s t) (hK : Avoids K [.choice] := by rfl) : t.choices = s.choices := by
  refine h.frame State.choices fun k a b hk m => ?_
  have hn := avoids_not_mem hK hk
  cases m <;> first | rfl | exact absurd hn (by decide) | (rw [foldl_resetPlan]; rfl)

end Moves

end Sys2Proof.Machine
end

