-- ==== Sys2Proof/Laws/Reports.lean ====
section
/-! SUPPORT. The moves of the shared operations: the Memory Port, the Fault Log, verdicts, the Plan Unit's reports, the Alarm
Unit. -/

namespace Sys2Proof.Machine

set_option Elab.async false

/-! ### The Memory Port -/

theorem Port.length_of_takesAtOnce {p : Port} (h : p.takesAtOnce = true) :
    p.queue.length < queueCapacity := by
  simp only [Port.takesAtOnce, Bool.and_eq_true, decide_eq_true_eq] at h
  exact h.1

@[simp] theorem Port.queue_join (p : Port) (e : WriteEntry) : (p.join e).queue = p.queue ++ [e] := rfl

theorem Port.length_handOver (p : Port) (e : WriteEntry) :
    (p.handOver e).queue.length ≤ p.queue.length ∨ (p.handOver e).queue.length ≤ queueCapacity := by
  unfold Port.handOver
  split
  · rename_i h
    have := Port.length_of_takesAtOnce h
    right
    simp only [Port.queue_join, List.length_append, List.length_singleton]
    omega
  · exact .inl (Nat.le_refl _)

theorem Port.length_joinWaiting {p q : Port} {e : WriteEntry} (h : p.joinWaiting = some (e, q)) :
    q.queue.length ≤ queueCapacity := by
  unfold Port.joinWaiting at h
  split at h
  · rename_i hlt
    split at h
    · simp only [Option.some.injEq, Prod.mk.injEq] at h
      rw [← h.2]
      simp only [Port.queue_join, List.length_append, List.length_singleton]
      omega
    · cases h
  · cases h

@[simp] theorem Port.length_leaveHead (p : Port) : p.leaveHead.queue.length = p.queue.length - 1 := by
  simp [Port.leaveHead]

@[simp] theorem Port.queue_release (p : Port) : p.release.queue = p.queue := rfl
@[simp] theorem Port.queue_ask (p : Port) (r : ReadRequest) : (p.ask r).queue = p.queue := rfl
@[simp] theorem Port.queue_dropPayloadWait (p : Port) (l : Line) : (p.dropPayloadWait l).queue = p.queue := rfl
@[simp] theorem Port.queue_waitPayload (p : Port) (l : Line) : (p.waitPayload l).queue = p.queue := by
  unfold Port.waitPayload; split <;> rfl
@[simp] theorem Port.length_detach (p : Port) (l : Line) : (p.detach l).queue.length = p.queue.length := by
  simp [Port.detach]
@[simp] theorem Port.queue_issue (p : Port) : p.issue.queue = p.queue := by
  unfold Port.issue
  split
  · rfl
  · split <;> rfl

theorem Port.length_mergeByte (p : Port) (b : Byte) : (p.mergeByte b).queue.length = p.queue.length := by
  unfold Port.mergeByte
  split
  · rfl
  · rename_i t h
    have hne : p.queue ≠ [] := by intro h0; simp [h0] at h
    have : 0 < p.queue.length := List.length_pos_iff.mpr hne
    simp only [List.length_append, List.length_dropLast, List.length_singleton]
    omega

theorem handOver_moves (e : WriteEntry) (s : State) : Moves [.port] s (handOver e s) :=
  .one (.port _ (Port.length_handOver _ _))

theorem askRead_moves (r : ReadRequest) (s : State) : Moves [.port] s (askRead r s) :=
  .one (.port _ (.inl (Nat.le_refl _)))

/-! ### Faults and verdicts -/

theorem recordFault_moves (kind : FaultKind) (l : Line) (p : Byte) (k : Agent) (s : State) :
    Moves [.log] s (recordFault kind l p k s) := .one (.log _)

theorem postVerdict_moves (k : Agent) (c : VerdictCode) (v : Half) (s : State) :
    Moves [.bank] s (postVerdict k c v s) := .one (.bank k _)

theorem postPending_moves (k : Agent) (s : State) : Moves [.bank] s (postPending k s) := .one (.bank k _)

/-! ### Changes of a plan context -/

/-- A change from one state of a plan on its line to another. -/
theorem PlanChange.liveToLive {s : State} {p q : Plan} (hp : p.state.isLive = true) (hq : q.state.isLive = true)
    (h3 : q.line = p.line) (hc : p.baseClass ≤ p.effClass ∧ p.effClass ≤ 7 → q.baseClass ≤ q.effClass ∧ q.effClass ≤ 7) :
    PlanChange s p q where
  ended := by
    constructor
    · intro h; rw [h] at hq; cases hq
    · intro h; rw [h] at hp; cases hp
  agent h := by rw [h] at hp; cases hp
  idle h := by rw [h] at hp; cases hp
  live _ := .inl ⟨hp, h3⟩
  inRange := hc

/-- A change of a plan context's position and counts. -/
theorem keepPlan_moves (i : Slot) (q : Plan) (s : State) (h1 : q.state = (s.plan i).state := by rfl)
    (h2 : q.agent = (s.plan i).agent := by rfl) (h3 : q.line = (s.plan i).line := by rfl)
    (h4 : q.baseClass = (s.plan i).baseClass := by rfl) (h5 : q.effClass = (s.plan i).effClass := by rfl)
    (h6 : q.endCode = (s.plan i).endCode := by rfl) (h7 : q.faultDetail = (s.plan i).faultDetail := by rfl)
    (h8 : q.detailLine = (s.plan i).detailLine := by rfl) :
    Moves [.count] s (s.setPlan i q) := .one (.count i q ⟨h1, h2, h3, h4, h5, h6, h7, h8⟩)

/-! ### The Plan Unit -/

theorem queueFinal_moves (i : Slot) (s : State) : Moves [.count, .port] s (queueFinal i s) :=
  (Moves.refl.via (handOver_moves _ s)).via (keepPlan_moves i _ _)

theorem pumpProgress_moves (i : Slot) (s : State) : Moves [.count, .port] s (pumpProgress i s) := by
  unfold pumpProgress
  split
  · exact (Moves.refl.via (handOver_moves _ s)).via (keepPlan_moves i _ _)
  · exact .refl

theorem planWriteAnswered_moves (i : Slot) (s : State) : Moves [.count] s (planWriteAnswered i s) :=
  keepPlan_moves i _ s

theorem reportAfterAnswer_moves (i : Slot) (s : State) : Moves [.count, .port] s (reportAfterAnswer i s) := by
  unfold reportAfterAnswer
  split
  · split
    · exact queueFinal_moves i s
    · exact .refl
  · exact pumpProgress_moves i s

theorem takeNote_moves (i : Slot) (s : State) : Moves [.count] s (takeNote i s) := keepPlan_moves i _ s

theorem toEnding_change (s : State) (p : Plan) (c : EndCode) (d : FaultDetail) (h : p.state.isOver = false) :
    PlanChange s p (p.toEnding c d) where
  ended := by
    constructor
    · intro h'; cases h'
    · intro h'; rw [h'] at h; cases h
  agent h' := by rw [h'] at h; cases h
  idle h' := by rw [h'] at h; cases h
  live h' := by cases h'
  inRange h' := h'

theorem endPlan_moves (i : Slot) (c : EndCode) (d : FaultDetail) (s : State) :
    Moves [.plan, .count, .port] s (endPlan i c d s) := by
  unfold endPlan
  split
  · exact .refl
  · rename_i h
    have m : Moves [.plan, .count, .port] s (s.modPlan i (·.toEnding c d)) :=
      Moves.refl.via (.one (.plan i _ (toEnding_change s _ c d (by simpa using h))))
    dsimp only
    split
    · exact m.via (queueFinal_moves i _)
    · exact m

theorem noteAlarm_moves (k : Agent) (s : State) (b : Bool) :
    Moves [.alarm] s (s.modAlarm k fun a => { a with note := b }) := .one (.alarm k _ (.inl (Nat.le_refl _)))

theorem finalAnswered_moves (i : Slot) (note accepted : Bool) (s : State) :
    Moves [.life, .alarm, .log] s (finalAnswered i note accepted s) := by
  unfold finalAnswered
  dsimp only
  split
  · rename_i h
    have m : Moves [.life, .alarm, .log] s _ := Moves.refl.via (.one (.ended i h))
    cases note <;> cases accepted
    · exact m.via (recordFault_moves _ _ _ _ _)
    · exact m
    · exact (m.via (noteAlarm_moves _ _ _)).via (recordFault_moves _ _ _ _ _)
    · exact m.via (noteAlarm_moves _ _ _)
  · exact .refl

theorem progressAnswered_moves (i : Slot) (accepted : Bool) (s : State) :
    Moves [.count, .port, .alarm, .log] s (progressAnswered i accepted s) := by
  unfold progressAnswered
  have m : Moves [.count, .port, .alarm, .log] s (s.modAlarm (s.plan i).agent fun a => { a with note := true }) :=
    Moves.refl.via (noteAlarm_moves _ _ _)
  dsimp only
  split
  · exact (m.via (planWriteAnswered_moves i _)).via (reportAfterAnswer_moves i _)
  · exact ((m.via (recordFault_moves _ _ _ _ _)).via (planWriteAnswered_moves i _)).via (reportAfterAnswer_moves i _)

/-! ### The Alarm Unit -/

/-- The kinds of moves of a list operation. -/
abbrev listKinds : List Kind := [.alarm, .port, .bank]

/-- The alarms a list holds and those that wait for it (R139). -/
def AlarmList.size (a : AlarmList) : Nat := a.count + a.waiting.length

theorem alarm_moves (k : Agent) (a : AlarmList) (s : State)
    (h : a.size ≤ (s.alarm k).size ∨ a.size ≤ alarmCapacity := by exact .inl (Nat.le_refl _)) :
    Moves [.alarm] s (s.setAlarm k a) := .one (.alarm k a h)

theorem AlarmList.size_handOff (a : AlarmList) (x : Alarm) :
    (a.handOff x).size ≤ a.size ∨ (a.handOff x).size ≤ alarmCapacity := by
  unfold AlarmList.handOff AlarmList.size
  split
  · right; simp only [List.length_append, List.length_singleton]; omega
  · exact .inl (Nat.le_refl _)

theorem AlarmList.size_endAppend (a : AlarmList) (b : Bool) : (a.endAppend b).size ≤ a.size := by
  unfold AlarmList.endAppend AlarmList.size
  split
  · rename_i h; rw [h]; cases b <;> simp <;> omega
  · exact Nat.le_refl _

theorem AlarmList.size_openClears (a : AlarmList) : a.openClears.size ≤ a.size := by
  unfold AlarmList.openClears AlarmList.size
  dsimp only
  split
  · simp only [List.length_take]; omega
  · simp

theorem alarmWrite_moves (k : Agent) (addr : Word) (data : List Byte) (op : WriteOp) (s : State) :
    Moves [.port] s (alarmWrite k addr data op s) := handOver_moves _ s

theorem beginAppend_moves (k : Agent) (x : Alarm) (s : State) : Moves [.alarm, .port] s (beginAppend k x s) :=
  (Moves.refl.via (alarm_moves k _ s)).via (alarmWrite_moves _ _ _ _ _)

theorem beginOverflowWrite_moves (k : Agent) (s : State) : Moves [.alarm, .port] s (beginOverflowWrite k s) :=
  (Moves.refl.via (alarm_moves k _ s)).via (alarmWrite_moves _ _ _ _ _)

theorem takeCountWrite_moves (k : Agent) (m : Nat) (s : State) : Moves [.alarm, .port] s (takeCountWrite k m s) :=
  (Moves.refl.via (alarm_moves k _ s)).via (alarmWrite_moves _ _ _ _ _)

theorem startTake_moves (k : Agent) (n : Nat) (s : State) : Moves listKinds s (startTake k n s) := by
  unfold startTake
  dsimp only
  split
  · exact (Moves.refl.via (alarm_moves k _ s)).via (postVerdict_moves _ _ _ _)
  · split
    · exact (Moves.refl.via (alarm_moves k _ s)).via (postVerdict_moves _ _ _ _)
    · have m : Moves listKinds s (s.modAlarm k fun a => { a with op := .taking }) := Moves.refl.via (alarm_moves k _ s)
      split
      · exact m.via (takeCountWrite_moves _ _ _)
      · exact m.via (askRead_moves _ _)

theorem serveTake_moves (k : Agent) (s : State) : Moves listKinds s (serveTake k s) := by
  unfold serveTake
  split
  · exact startTake_moves _ _ _
  · exact .refl

theorem clearWrite_moves (k : Agent) (s : State) : Moves [.port] s (clearWrite k s) := alarmWrite_moves _ _ _ _ _

theorem cleared_size (a : AlarmList) : a.cleared.size ≤ a.size := by
  simp only [AlarmList.size, AlarmList.cleared]; omega

theorem pumpList_moves (k : Agent) (s : State) : Moves listKinds s (pumpList k s) := by
  unfold pumpList
  have m := serveTake_moves k s
  dsimp only
  split
  · exact m
  · split
    · exact (m.via (alarm_moves k _ _ (.inl (cleared_size _)))).via (clearWrite_moves _ _)
    · split
      · exact m.via (beginAppend_moves _ _ _)
      · split
        · exact m.via (beginOverflowWrite_moves _ _)
        · exact m

theorem handOffAlarm_moves (k : Agent) (x : Alarm) (s : State) : Moves listKinds s (handOffAlarm k x s) :=
  (Moves.refl.via (alarm_moves k _ s (AlarmList.size_handOff _ _))).trans (pumpList_moves _ _)

theorem alarmLost_moves (k : Agent) (s : State) : Moves [.log] s (alarmLost k s) := by
  unfold alarmLost
  split
  · exact recordFault_moves _ _ _ _ _
  · exact .refl

theorem countWordLost_moves (k : Agent) (accepted : Bool) (s : State) : Moves [.log] s (countWordLost k accepted s) := by
  unfold countWordLost
  split
  · exact .refl
  · exact recordFault_moves _ _ _ _ _

/-- The kinds of moves of an answer to the Alarm Unit. -/
abbrev alarmAnswerKinds : List Kind := [.alarm, .port, .bank, .log]

theorem loseAppend_moves (k : Agent) (s : State) :
    Moves alarmAnswerKinds s (pumpList k ((alarmLost k s).modAlarm k (·.endAppend false))) :=
  ((Moves.refl.via (alarmLost_moves k s)).via (alarm_moves k _ _ (.inl (AlarmList.size_endAppend _ _)))).via
    (pumpList_moves _ _)

theorem entryAnswered_moves (k : Agent) (accepted : Bool) (s : State) :
    Moves alarmAnswerKinds s (entryAnswered k accepted s) := by
  unfold entryAnswered
  split
  · exact (Moves.refl.via (alarm_moves k _ s)).via (alarmWrite_moves _ _ _ _ _)
  · exact loseAppend_moves k s

theorem appendCountAnswered_moves (k : Agent) (accepted : Bool) (s : State) :
    Moves alarmAnswerKinds s (appendCountAnswered k accepted s) := by
  unfold appendCountAnswered
  split
  · exact (Moves.refl.via (alarm_moves k _ s (.inl (AlarmList.size_endAppend _ _)))).via (pumpList_moves _ _)
  · exact loseAppend_moves k s

theorem overflowAnswered_moves (k : Agent) (accepted : Bool) (s : State) :
    Moves alarmAnswerKinds s (overflowAnswered k accepted s) :=
  ((Moves.refl.via (countWordLost_moves k accepted s)).via (alarm_moves k _ _)).via (pumpList_moves _ _)

theorem takeReadAnswered_moves (k : Agent) (a : ReadAnswer) (s : State) :
    Moves listKinds s (takeReadAnswered k a s) := by
  unfold takeReadAnswered
  split
  · exact ((Moves.refl.via (alarm_moves k _ s)).via (postVerdict_moves _ _ _ _)).trans (pumpList_moves _ _)
  · exact Moves.refl.via (alarmWrite_moves _ _ _ _ _)

theorem moveAnswered_moves (k : Agent) (accepted : Bool) (s : State) : Moves listKinds s (moveAnswered k accepted s) := by
  unfold moveAnswered
  split
  · exact Moves.refl.via (takeCountWrite_moves _ _ _)
  · exact ((Moves.refl.via (alarm_moves k _ s)).via (postVerdict_moves _ _ _ _)).trans (pumpList_moves _ _)

theorem takeCountAnswered_moves (k : Agent) (accepted : Bool) (s : State) :
    Moves alarmAnswerKinds s (takeCountAnswered k accepted s) := by
  unfold takeCountAnswered
  have ha : (countWordLost k accepted s).alarm k = s.alarm k := by
    have := (countWordLost_moves k accepted s).alarms_eq
    simp only [State.alarm, this]
  refine (((Moves.refl.via (countWordLost_moves k accepted s)).via (alarm_moves k _ _ (.inl ?_))).via
    (postVerdict_moves _ _ _ _)).via (pumpList_moves _ _)
  rw [ha]
  simp only [AlarmList.size, AlarmList.endTake, AlarmList.remaining]
  omega

/-! ### Free orders -/

theorem insertAt_perm {α : Type} (n : Nat) (x : α) (l : List α) : (insertAt n x l).Perm (x :: l) := by
  induction l generalizing n with
  | nil => cases n <;> exact .refl _
  | cons y l ih =>
    cases n with
    | zero => exact .refl _
    | succ n => exact ((ih n).cons y).trans (.swap x y l)

/-- A free order is a rearrangement. -/
theorem freeOrder_perm {α : Type} : ∀ (l : List α) (n : Nat), (freeOrder n l).1.Perm l
  | [], _ => .refl _
  | [_], _ => .refl _
  | x :: y :: r, n => by
    unfold freeOrder
    exact (insertAt_perm _ _ _).trans ((freeOrder_perm (y :: r) n).cons x)

theorem inFreeOrder_moves {α : Type} {K : List Kind} (s : State) (l : List α) (act : α → State → State)
    (hK : K.contains .choice = true) (h : ∀ t x, x ∈ l → Moves K t (act x t)) : Moves K s (s.inFreeOrder l act) := by
  unfold State.inFreeOrder
  refine Moves.trans (.snoc .refl hK (.choice _)) (Moves.foldl _ _ _ fun t x hx => h t x ?_)
  exact (freeOrder_perm l _).mem_iff.mp hx

/-! ### The clearing at OPEN -/

theorem clearLists_moves (s : State) : Moves [.alarm, .port, .choice] s (clearLists s) := by
  unfold clearLists
  refine Moves.trans (Moves.trans (Moves.foldl _ _ _ fun t k _ => ?_) (Moves.foldl _ _ _ fun t k _ => ?_))
    (inFreeOrder_moves _ _ _ rfl fun t k _ => ?_)
  · exact Moves.refl.via (alarm_moves k _ t (.inl (AlarmList.size_openClears _)))
  · exact Moves.refl.via (alarm_moves k _ t (.inl (cleared_size _)))
  · exact Moves.refl.via (clearWrite_moves k t)

end Sys2Proof.Machine
end

