-- ==== Sys2Proof/Laws/Contexts.lean ====
section
/-! SUPPORT. The moves of the station contexts: records, the entry of an exchange, RESOLVING, lookups, hand-overs, flushes and
the answers to loads and write-backs. -/

namespace Sys2Proof.Machine

set_option Elab.async false

/-! ### Records keep their bucket in range -/

/-- A change of a record that keeps a bucket of at most 15. -/
def KeepsBucket (f : StationRecord → StationRecord) : Prop := ∀ r : StationRecord, r.bucket ≤ 15 → (f r).bucket ≤ 15

theorem keepsBucket_freed (n : Nat) : KeepsBucket (·.freed n) := fun _ h => h

theorem keepsBucket_drain (w : Word) (n : Nat) : KeepsBucket (·.drain w n) := fun r h =>
  Nat.le_trans (Nat.sub_le r.bucket _) h

theorem keepsBucket_fail : KeepsBucket StationRecord.fail := fun r h => by
  unfold StationRecord.fail
  dsimp only
  split <;> omega

theorem keepsBucket_quarantine : KeepsBucket StationRecord.quarantine := fun _ h => h
theorem keepsBucket_forgetToggle : KeepsBucket StationRecord.forgetToggle := fun _ h => h
theorem keepsBucket_setAlarmPending (b : Bool) : KeepsBucket (·.setAlarmPending b) := fun _ h => h

theorem bucket_resolveToggle (r : StationRecord) (o : ExchangeOutcome) (e : Exchange) (w : Word) :
    (r.resolveToggle o e w).bucket = r.bucket := by
  unfold StationRecord.resolveToggle
  dsimp only
  split <;> split <;> rfl

theorem bucket_resolve (r : StationRecord) (o : ExchangeOutcome) (e : Exchange) (k : Agent) (c : Bool) (w : Word) :
    (r.resolve o e k c w).bucket = r.bucket := by
  unfold StationRecord.resolve
  dsimp only
  rw [bucket_resolveToggle]
  split <;> rfl

theorem keepsBucket_resolve (o : ExchangeOutcome) (e : Exchange) (k : Agent) (c : Bool) (w : Word) :
    KeepsBucket (·.resolve o e k c w) := fun r h => by rw [bucket_resolve]; exact h

theorem bucket_loadedCopy (data : List Byte) (r : StationRecord) (n : Nat) : (loadedCopy data r n).1.bucket = r.bucket := by
  unfold loadedCopy
  dsimp only
  split <;> rfl

theorem bucket_usableRecord {data : List Byte} {a : Byte} {r : StationRecord} (h : usableRecord data a = some r) :
    r.bucket ≤ 15 := by
  unfold usableRecord at h
  split at h
  · cases h
  · split at h
    · cases h
    · split at h
      · cases h
      · simp only [Option.some.injEq] at h
        rw [← h]
        simp only [stationRecordOf]
        omega

/-! ### Ways -/

theorem bucketsFit_upd {ways : Vector Way 64} {n : Fin 64} {w : Way}
    (hw : (ways.get n).copy.bucket ≤ 15 → w.copy.bucket ≤ 15) (h : bucketsFit ways) : bucketsFit (upd ways n w) := by
  intro m
  rw [get_upd]
  split
  · exact hw (h n)
  · exact h m

theorem setWay_moves (n : Fin 64) (w : Way) (s : State) (h : (s.way n).copy.bucket ≤ 15 → w.copy.bucket ≤ 15) :
    Moves [.cache] s (s.setWay n w) := .one (.cache _ (bucketsFit_upd h))

theorem modWay_moves (n : Fin 64) (f : Way → Way) (s : State)
    (h : (s.way n).copy.bucket ≤ 15 → (f (s.way n)).copy.bucket ≤ 15) : Moves [.cache] s (s.modWay n f) :=
  setWay_moves n _ s h

/-- A change of a way that leaves its copy. -/
theorem keepWay_moves (n : Fin 64) (f : Way → Way) (s : State) (h : ∀ w, (f w).copy = w.copy) :
    Moves [.cache] s (s.modWay n f) := modWay_moves n f s (by rw [h]; exact id)

theorem setCache_moves (x : Cache) (s : State) (h : x.ways = s.cache.ways := by rfl) : Moves [.cache] s (s.setCache x) :=
  .one (.cache x (by rw [h]; exact id))

theorem lruNames_moves (n : Fin 64) (s : State) : Moves [.cache] s (lruNames n s) := setCache_moves _ s
theorem lruNamesOther_moves (n : Fin 64) (s : State) : Moves [.cache] s (lruNamesOther n s) := setCache_moves _ s

theorem changeEntry_moves (l : Line) (f : StationRecord → StationRecord) (s : State) (hf : KeepsBucket f) :
    Moves [.cache] s (changeEntry l f s) := by
  unfold changeEntry
  split
  · exact setWay_moves _ _ s (hf _)
  · exact .refl

theorem markEntry_moves (l : Line) (f : StationRecord → StationRecord) (s : State) (hf : KeepsBucket f) :
    Moves [.cache] s (markEntry l f s) := by
  unfold markEntry
  split
  · exact setWay_moves _ _ s (hf _)
  · exact .refl

theorem modExch_moves (l : Line) (f : Exchange → Exchange) (s : State) : Moves [.exch] s (s.modExch l f) :=
  .one (.exch l _)

theorem modWalk_moves (l : Line) (f : Walk → Walk) (s : State) : Moves [.walk] s (s.modWalk l f) := .one (.walk l _)

theorem modSched_moves (l : Line) (f : Scheduler → Scheduler) (s : State) : Moves [.sched] s (s.modSched l f) :=
  .one (.sched l _)

theorem modDriver_moves (l : Line) (f : Driver → Driver) (s : State) : Moves [.driver] s (s.modDriver l f) :=
  .one (.driver l _)

theorem modBank_moves (k : Agent) (f : Bank → Bank) (s : State) : Moves [.bank] s (s.modBank k f) := .one (.bank k _)

/-! ### RESOLVING -/

theorem queueResult_moves (l : Line) (e : WriteEntry) (s : State) : Moves [.port, .tally, .count] s (queueResult l e s) :=
  ((Moves.refl.via (handOver_moves e s)).via (.one (.tally l _))).via (keepPlan_moves _ _ _)

theorem queueResults_moves (l : Line) (o : ExchangeOutcome) (s : State) :
    Moves [.port, .tally, .count] s (queueResults l o s) :=
  Moves.foldl _ _ _ fun t e _ => queueResult_moves l e t

theorem stationUpdate_moves (l : Line) (o : ExchangeOutcome) (s : State) : Moves [.cache] s (stationUpdate l o s) :=
  markEntry_moves _ _ _ (keepsBucket_resolve _ _ _ _ _)

theorem alarmHandOff_moves (l : Line) (s : State) : Moves [.cache, .alarm, .port, .bank] s (alarmHandOff l s) := by
  unfold alarmHandOff
  dsimp only
  split
  · split
    · split
      · exact .refl
      · exact (Moves.refl.via (changeEntry_moves l _ s (keepsBucket_setAlarmPending true))).via (handOffAlarm_moves _ _ _)
    · exact Moves.refl.via (changeEntry_moves l _ s (keepsBucket_setAlarmPending false))
  · exact .refl

/-- The kinds of moves of a lookup and of all that follows it in its step. -/
abbrev contextKinds : List Kind := [.count, .port, .tally, .exch, .cache, .alarm, .bank]

theorem enterResolving_moves (l : Line) (o : ExchangeOutcome) (s : State) :
    Moves contextKinds s (enterResolving l o s) :=
  (((Moves.refl.via (modExch_moves l _ s)).via (stationUpdate_moves l o _)).via (alarmHandOff_moves l _)).via
    (queueResults_moves l o _)

theorem fetchPayload_moves (l : Line) (s : State) : Moves [.exch, .port] s (fetchPayload l s) := by
  unfold fetchPayload
  dsimp only
  split
  · exact Moves.refl.via (modExch_moves l _ s)
  · exact Moves.refl.via (askRead_moves _ s)

theorem afterPinned_moves (l : Line) (s : State) : Moves contextKinds s (afterPinned l s) := by
  unfold afterPinned
  have m : Moves contextKinds s _ := Moves.refl.via (changeEntry_moves l _ s (keepsBucket_drain (s.driver l).drainEpoch
    (s.driver l).setup.releaseLevel))
  dsimp only
  split
  · exact m
  · split
    · exact m.trans (enterResolving_moves l _ _)
    · exact (m.via (modExch_moves l _ _)).via (fetchPayload_moves l _)

theorem pinFor_moves (l : Line) (n : Fin 64) (s : State) : Moves contextKinds s (pinFor l n s) := by
  unfold pinFor
  dsimp only
  refine Moves.trans (Moves.via (Moves.via .refl (keepWay_moves n _ s ?_)) (modExch_moves l _ _)) (afterPinned_moves l _)
  exact fun _ => rfl

theorem recordInvalid_moves (l : Line) (s : State) : Moves contextKinds s (recordInvalid l s) :=
  (Moves.refl.via (modExch_moves l _ s)).trans (enterResolving_moves l _ _)

/-! ### Lookups -/

theorem startLoad_moves (n : Fin 64) (k : Key) (a : Agent) (s : State) : Moves [.cache, .port] s (startLoad n k a s) :=
  (Moves.refl.via (setWay_moves n _ s fun _ => Nat.zero_le 15)).via (askRead_moves _ _)

theorem freeWay_moves (n : Fin 64) (s : State) : Moves [.cache] s (freeWay n s) :=
  (modWay_moves n Way.freed s fun _ => Nat.zero_le 15).trans (lruNames_moves n _)

theorem listWriteBack_moves (k : Key) (s : State) : Moves [.cache] s (listWriteBack k s) := setCache_moves _ s

theorem evict_moves (n : Fin 64) (k : Key) (a : Agent) (s : State) : Moves [.cache, .port] s (evict n k a s) := by
  unfold evict
  have m : Moves [.cache, .port] s (lruNamesOther n s) := Moves.refl.via (lruNamesOther_moves n s)
  dsimp only
  split
  · exact m.trans (startLoad_moves n k a _)
  · split
    · exact ((m.via (handOver_moves _ _)).via (listWriteBack_moves _ _)).trans (startLoad_moves n k a _)
    · refine (m.via (handOver_moves _ _)).via (keepWay_moves n _ _ ?_)
      exact fun _ => rfl

theorem waitForLoad_moves (l : Line) (s : State) : Moves [.exch] s (waitForLoad l s) := modExch_moves l _ s

theorem waitForHandOver_moves (l : Line) (s : State) : Moves [.cache, .exch] s (waitForHandOver l s) := by
  unfold waitForHandOver
  dsimp only
  refine Moves.via (Moves.via .refl (setCache_moves _ s ?_)) (modExch_moves l _ _)
  rfl

theorem stall_moves (l : Line) (s : State) : Moves [.cache, .exch] s (stall l s) := by
  unfold stall
  dsimp only
  refine Moves.via (Moves.via .refl (setCache_moves _ s ?_)) (modExch_moves l _ _)
  rfl

theorem lookup_moves (l : Line) (s : State) : Moves contextKinds s (lookup l s) := by
  unfold lookup
  dsimp only
  split
  · exact (Moves.refl.via (lruNamesOther_moves _ s)).trans (pinFor_moves _ _ _)
  · exact Moves.refl.via (waitForLoad_moves l s)
  · exact Moves.refl.via (waitForHandOver_moves l s)
  · exact ((Moves.refl.via (lruNamesOther_moves _ s)).via (startLoad_moves _ _ _ _)).via (waitForLoad_moves l _)
  · exact (Moves.refl.via (evict_moves _ _ _ s)).via (waitForLoad_moves l _)
  · exact Moves.refl.via (stall_moves l s)

theorem serveStall_moves (i : SetIndex) (s : State) : Moves contextKinds s (serveStall i s) := by
  unfold serveStall
  split
  · exact .refl
  · exact (Moves.refl.via (setCache_moves _ s)).trans (lookup_moves _ _)

theorem serveFree_moves (i : SetIndex) (s : State) : Moves contextKinds s (serveFree i s) :=
  ((serveStall_moves i s).via (setCache_moves _ _)).trans (Moves.foldl _ _ _ fun t l _ => lookup_moves l t)

theorem remakeFor_moves (k : Key) (s : State) : Moves contextKinds s (remakeFor k s) :=
  (Moves.refl.via (setCache_moves _ s)).trans (Moves.foldl _ _ _ fun t l _ => lookup_moves l t)

/-! ### Hand-overs -/

theorem wayHandedOver_moves (k : Key) (s : State) : Moves contextKinds s (wayHandedOver k s) := by
  unfold wayHandedOver
  have m : Moves contextKinds s (listWriteBack k s) := Moves.refl.via (listWriteBack_moves k s)
  split
  · exact m
  · dsimp only
    split
    · exact (m.via (startLoad_moves _ _ _ _)).trans (remakeFor_moves _ _)
    · exact (m.via (freeWay_moves _ _)).trans (serveFree_moves _ _)

theorem pumpWrites_moves (n : Nat) (s : State) : Moves contextKinds s (pumpWrites n s) := by
  induction n generalizing s with
  | zero => exact .refl
  | succ n ih =>
    unfold pumpWrites
    split
    · exact .refl
    · rename_i e p h
      have m : Moves contextKinds s (s.setPort p) := Moves.refl.via (.one (.port p (.inr (Port.length_joinWaiting h))))
      refine Moves.trans ?_ (ih _)
      split
      · exact m.trans (wayHandedOver_moves _ _)
      · exact m

theorem pumpWaiting_moves (s : State) : Moves contextKinds s (pumpWaiting s) := pumpWrites_moves _ s

/-! ### Pins and lookups withdrawn -/

theorem releasePin_moves (l : Line) (s : State) : Moves contextKinds s (releasePin l s) := by
  unfold releasePin
  have m : Moves contextKinds s (s.modExch l fun e => { e with entryHeld := false }) := Moves.refl.via (modExch_moves l _ s)
  dsimp only
  split
  · refine (m.via (keepWay_moves _ _ _ ?_)).trans (serveStall_moves _ _)
    exact fun _ => rfl
  · exact m

theorem withdrawLookup_moves (l : Line) (s : State) : Moves [.cache, .exch] s (withdrawLookup l s) := by
  unfold withdrawLookup
  dsimp only
  refine Moves.via (Moves.via .refl (setCache_moves _ s ?_)) (modExch_moves l _ _)
  rfl

/-! ### Flushing -/

theorem giveUpWay_moves (n : Fin 64) (s : State) : Moves [.cache, .port] s (giveUpWay n s) := by
  unfold giveUpWay
  dsimp only
  split
  · exact Moves.refl.via (freeWay_moves n s)
  · split
    · exact ((Moves.refl.via (handOver_moves _ s)).via (listWriteBack_moves _ _)).via (freeWay_moves n _)
    · refine (Moves.refl.via (handOver_moves _ s)).via (keepWay_moves n _ _ ?_)
      exact fun _ => rfl

theorem serveFreed_moves (ways : List (Fin 64)) (s : State) : Moves contextKinds s (serveFreed ways s) :=
  Moves.foldl _ _ _ fun t n _ => by
    split
    · exact serveFree_moves _ t
    · exact .refl

theorem giveUpWays_moves (ways : List (Fin 64)) (s : State) :
    Moves [.cache, .port] s (ways.foldl (fun t n => giveUpWay n t) s) :=
  Moves.foldl _ _ _ fun t n _ => giveUpWay_moves n t

theorem flushLineFor_moves (k : Agent) (l : Line) (s : State) : Moves contextKinds s (flushLineFor k l s) := by
  unfold flushLineFor
  have m : Moves contextKinds s _ := Moves.refl.via (giveUpWays_moves (s.flushable l) s)
  dsimp only
  refine Moves.trans ?_ (serveFreed_moves _ _)
  split
  · exact m.via (postVerdict_moves _ _ _ _)
  · exact (m.via (modBank_moves k _ _)).via (postPending_moves k _)

theorem flushStation_moves (k : Agent) (key : Key) (s : State) : Moves contextKinds s (flushStation k key s) := by
  have v (c : VerdictCode) (n : Half) (t : State) (h : Moves contextKinds s t) : Moves contextKinds s (postVerdict k c n t) :=
    h.via (postVerdict_moves k c n t)
  unfold flushStation
  split
  · dsimp only
    split
    · exact v _ _ _ .refl
    · split
      · exact (v _ _ _ (Moves.refl.via (freeWay_moves _ s))).trans (serveFree_moves _ _)
      · exact (((Moves.refl.via (modBank_moves k _ s)).via (postPending_moves k _)).via (giveUpWay_moves _ _)).trans
          (serveFreed_moves _ _)
  · split
    · exact v _ _ _ .refl
    · dsimp only
      generalize s.keyWriteBacks key + _ = left
      split
      · exact v _ _ _ .refl
      · exact (Moves.refl.via (modBank_moves k _ s)).via (postPending_moves k _)

/-! ### The cache's part of LINE_DISABLE, and answers -/

/-- The kinds of moves of an answer to a load or to a write-back. -/
abbrev cacheAnswerKinds : List Kind := .log :: .driver :: contextKinds

theorem advanceDisable_moves (l : Line) (s : State) : Moves (.driver :: contextKinds) s (advanceDisable l s) := by
  unfold advanceDisable
  split
  · exact .refl
  · have m : Moves (.driver :: contextKinds) s _ :=
      (Moves.refl.via (giveUpWays_moves (s.flushable l) s)).via (serveFreed_moves (s.flushable l) _)
    dsimp only
    split
    · exact (m.via (modDriver_moves l _ _)).via (handOver_moves _ _)
    · exact m

theorem writeBackAnswered_moves (k : Key) (a : Agent) (accepted : Bool) (s : State) :
    Moves cacheAnswerKinds s (writeBackAnswered k a accepted s) := by
  unfold writeBackAnswered
  have m : Moves cacheAnswerKinds s _ :=
    Moves.refl.via (setCache_moves { s.cache with writeBacks := s.cache.writeBacks.erase k } s)
  dsimp only
  refine Moves.via (Moves.trans ?_ (Moves.foldl _ _ _ fun t k _ => Moves.refl.via (modBank_moves k _ t)))
    (advanceDisable_moves _ _)
  split
  · exact m
  · exact m.via (recordFault_moves _ _ _ _ _)

theorem loadUnusable_moves (n : Fin 64) (k : Key) (s : State) : Moves contextKinds s (loadUnusable n k s) := by
  unfold loadUnusable
  have m : Moves contextKinds s (freeWay n s) := Moves.refl.via (freeWay_moves n s)
  dsimp only
  split
  · exact (m.trans (recordInvalid_moves _ _)).trans (serveFree_moves _ _)
  · exact m.trans (serveFree_moves _ _)

theorem loadUsable_moves (n : Fin 64) (k : Key) (a : Agent) (data : List Byte) (r : StationRecord) (s : State)
    (hr : r.bucket ≤ 15) : Moves (.log :: contextKinds) s (loadUsable n k a data r s) := by
  unfold loadUsable
  dsimp only
  have m : Moves (.log :: contextKinds) s _ :=
    Moves.refl.via (setWay_moves n { s.way n with
      condition := .valid, copy := (loadedCopy data r (s.driver k.line).setup.releaseLevel).1,
      dirty := (loadedCopy data r (s.driver k.line).setup.releaseLevel).2 ||
        decide ((loadedCopy data r (s.driver k.line).setup.releaseLevel).1.state ≠ r.state) } s
      fun _ => by dsimp only; rw [bucket_loadedCopy]; exact hr)
  have m2 (t : State) (h : Moves (.log :: contextKinds) s t) : Moves (.log :: contextKinds) s
      (if t.awaitsLoad k then pinFor k.line n t
        else serveStall (setOfWay n) (t.modWay n fun w => { w with pinned := false })) := by
    split
    · exact h.via (pinFor_moves _ _ _)
    · refine (h.via (keepWay_moves n _ _ ?_)).via (serveStall_moves _ _)
      exact fun _ => rfl
  refine m2 _ ?_
  split
  · exact m.via (recordFault_moves _ _ _ _ _)
  · exact m

theorem stationLoadAnswered_moves (k : Key) (a : Agent) (ans : ReadAnswer) (s : State) :
    Moves cacheAnswerKinds s (stationLoadAnswered k a ans s) := by
  unfold stationLoadAnswered
  split
  · exact .refl
  · dsimp only
    refine Moves.via ?_ (advanceDisable_moves _ _)
    split
    · exact Moves.refl.via (loadUnusable_moves _ _ s)
    · split
      · exact Moves.refl.via (loadUnusable_moves _ _ s)
      · rename_i h
        exact Moves.refl.via (loadUsable_moves _ _ _ _ _ s (bucket_usableRecord h))

end Sys2Proof.Machine
end

