-- ==== Sys2Proof/Laws/Walks.lean ====
section
/-! SUPPORT. The moves of the Line Scheduler and of the descriptor walk. -/

namespace Sys2Proof.Machine

set_option Elab.async false

/-- The kinds of moves of a selection: plan contexts, requests, walks and run queues. -/
abbrev scheduleKinds : List Kind := [.plan, .count, .port, .walk, .sched]

/-! ### Leaving the line -/

theorem leaveWalk_moves (l : Line) (s : State) : Moves [.port, .walk] s (leaveWalk l s) :=
  (Moves.refl.via (.one (.port _ (.inl (Nat.le_of_eq (Port.length_detach s.port l)))))).via (modWalk_moves l _ _)

theorem clearHolder_moves (l : Line) (s : State) : Moves [.sched] s (clearHolder l s) := modSched_moves l _ s

theorem endHolder_moves (l : Line) (c : EndCode) (d : FaultDetail) (s : State) :
    Moves scheduleKinds s (endHolder l c d s) :=
  ((Moves.refl.via (endPlan_moves _ c d s)).via (leaveWalk_moves l _)).via (clearHolder_moves l _)

theorem stopWalk_moves (l : Line) (d : FaultDetail) (s : State) : Moves scheduleKinds s (stopWalk l d s) :=
  endHolder_moves l _ d s

theorem joinQueue_moves (i : Slot) (s : State) : Moves [.sched] s (joinQueue i s) := .one (.sched _ _)

theorem leaveQueue_moves (l : Line) (i : Slot) (s : State) : Moves [.sched] s (leaveQueue l i s) := modSched_moves l _ s

/-! ### Activation, fetch, selection -/

/-- An entry that may be chosen belongs to a plan that stands on its line. -/
theorem isLive_of_eligible {s : State} {l : Line} {e : QueueEntry} (h : s.eligible l e = true) :
    (s.plan e.slot).state.isLive = true := by
  simp only [State.eligible, Bool.and_eq_true, Bool.or_eq_true, decide_eq_true_eq] at h
  rcases h.2 with h | h
  · rw [h]; rfl
  · rw [h.1]; rfl

theorem isLive_of_firstEligible {s : State} {l : Line} {e : QueueEntry} (h : s.firstEligible l = some e) :
    (s.plan e.slot).state.isLive = true := isLive_of_eligible (List.find?_some h)

@[simp] theorem startRun_state (p : Plan) : p.startRun.state = p.state := by unfold Plan.startRun; dsimp only; split <;> rfl
@[simp] theorem startRun_line (p : Plan) : p.startRun.line = p.line := by unfold Plan.startRun; dsimp only; split <;> rfl
@[simp] theorem startRun_agent (p : Plan) : p.startRun.agent = p.agent := by unfold Plan.startRun; dsimp only; split <;> rfl
@[simp] theorem startRun_baseClass (p : Plan) : p.startRun.baseClass = p.baseClass := by
  unfold Plan.startRun; dsimp only; split <;> rfl
@[simp] theorem startRun_effClass (p : Plan) : p.startRun.effClass = p.effClass := by
  unfold Plan.startRun; dsimp only; split <;> rfl

theorem activate_moves (l : Line) (i : Slot) (s : State) (h : (s.plan i).state.isLive = true) :
    Moves scheduleKinds s (activate l i s) := by
  unfold activate
  have m : Moves scheduleKinds s ((leaveQueue l i s).modSched l fun x => { x with holder := some i }) :=
    (Moves.refl.via (leaveQueue_moves l i s)).via (modSched_moves l _ _)
  have hc (q : Plan) (hq : q.state.isLive = true) (hl : q.line = (s.plan i).line)
      (hb : q.baseClass = (s.plan i).baseClass) (he : q.effClass = (s.plan i).baseClass) :
      PlanChange ((leaveQueue l i s).modSched l fun x => { x with holder := some i }) (s.plan i) q :=
    .liveToLive h hq hl fun hr => by rw [hb, he]; exact ⟨Nat.le_refl _, Nat.le_trans hr.1 hr.2⟩
  dsimp only
  split
  · refine Moves.via (m.via (.one (.plan i _ (hc _ ?_ ?_ ?_ ?_)))) (modWalk_moves l _ _) <;> rfl
  · refine Moves.via (m.via (.one (.plan i _ (hc _ ?_ ?_ ?_ ?_)))) (modWalk_moves l _ _)
    · rw [startRun_state]; rfl
    · rw [startRun_line]
    · rw [startRun_baseClass]
    · rw [startRun_effClass]

theorem issueFetch_moves (l : Line) (s : State) : Moves [.walk, .port] s (issueFetch l s) := by
  unfold issueFetch
  exact (Moves.refl.via (modWalk_moves l _ s)).via (askRead_moves _ _)

theorem fetch_moves (l : Line) (s : State) : Moves scheduleKinds s (fetch l s) := by
  unfold fetch
  have m : Moves scheduleKinds s (s.modPlan (s.slotOf l) fun p => { p with currentAddr := (s.walk l).nextAddr }) :=
    Moves.refl.via (keepPlan_moves _ _ s)
  dsimp only
  split
  · exact m.via (issueFetch_moves l _)
  · exact m.trans (stopWalk_moves l _ _)

theorem selectFrom_moves (n : Nat) (l : Line) (s : State) : Moves scheduleKinds s (selectFrom n l s) := by
  induction n generalizing s with
  | zero => exact .refl
  | succ n ih =>
    unfold selectFrom
    split
    · split
      · exact .refl
      · rename_i e h
        exact ((activate_moves l e.slot s (isLive_of_firstEligible h)).trans (fetch_moves l _)).trans (ih _)
    · exact .refl

theorem select_moves (l : Line) (s : State) : Moves scheduleKinds s (select l s) := selectFrom_moves _ l s

theorem selectAll_moves (s : State) : Moves (.choice :: scheduleKinds) s (selectAll s) :=
  inFreeOrder_moves _ _ _ rfl fun t l _ => Moves.refl.via (select_moves l t)

/-! ### Runs and boundaries -/

theorem countRun_moves (i : Slot) (s : State) : Moves [.count] s (s.modPlan i Plan.countRun) := keepPlan_moves i _ s

theorem afterRun_change (s : State) (p : Plan) (h : p.state = .active) : PlanChange s p p.afterRun := by
  unfold Plan.afterRun
  split
  · exact .liveToLive (by rw [h]; rfl) rfl rfl id
  · exact .liveToLive (by rw [h]; rfl) rfl rfl id

theorem runEnd_moves (l : Line) (s : State) : Moves scheduleKinds s (runEnd l s) := by
  unfold runEnd
  dsimp only
  split
  · exact .refl
  · rename_i ha
    have ha : (s.plan (s.slotOf l)).state = .active := by simpa using ha
    have m : Moves scheduleKinds s (s.modPlan (s.slotOf l) Plan.countRun) := Moves.refl.via (countRun_moves _ s)
    split
    · exact m.trans (endHolder_moves l _ _ _)
    · have m2 (t : State) (ht : Moves scheduleKinds s t) (hs : (t.plan (s.slotOf l)).state = .active) :
          Moves scheduleKinds s (pumpProgress (s.slotOf l)
            (if (t.plan (s.slotOf l)).intervalExpired = true then
              joinQueue (s.slotOf l) (clearHolder l (leaveWalk l (t.modPlan (s.slotOf l) Plan.afterRun)))
            else clearHolder l (leaveWalk l (t.modPlan (s.slotOf l) Plan.afterRun)))) := by
        have m3 : Moves scheduleKinds s (clearHolder l (leaveWalk l (t.modPlan (s.slotOf l) Plan.afterRun))) :=
          ((ht.via (.one (.plan _ _ (afterRun_change t _ hs)))).via (leaveWalk_moves l _)).via (clearHolder_moves l _)
        split
        · exact (m3.via (joinQueue_moves _ _)).via (pumpProgress_moves _ _)
        · exact m3.via (pumpProgress_moves _ _)
      refine m2 _ ?_ ?_
      · split
        · exact m.via (takeNote_moves _ _)
        · exact m
      · split <;> simp [takeNote, Plan.countRun, ha]

theorem passBoundary_moves (l : Line) (hold : Bool) (s : State) : Moves [.walk] s (passBoundary l hold s) :=
  modWalk_moves l _ s

theorem plan_leaveWalk (l : Line) (s : State) (i : Slot) : (leaveWalk l s).plan i = s.plan i := rfl
theorem plan_joinQueue (j : Slot) (s : State) (i : Slot) : (joinQueue j s).plan i = s.plan i := rfl

theorem yieldTo_moves (l : Line) (i j : Slot) (s : State) (hi : (s.plan i).state = .active)
    (hj : (s.plan j).state.isLive = true) : Moves scheduleKinds s (yieldTo l i j s) := by
  unfold yieldTo
  dsimp only
  refine Moves.trans (Moves.trans (((Moves.refl.via (.one (.plan i _ ?_))).via (leaveWalk_moves l _)).via
    (joinQueue_moves i _)) (activate_moves l j _ ?_)) (fetch_moves l _)
  · exact .liveToLive (by rw [hi]; rfl) rfl rfl id
  · rw [plan_joinQueue, plan_leaveWalk]
    simp only [State.plan, State.setPlan, get_upd]
    split
    · rfl
    · exact hj

theorem isLive_of_yieldsTo {s : State} {l : Line} {i : Slot} {e : QueueEntry} (h : s.yieldsTo l i = some e) :
    (s.plan e.slot).state.isLive = true := by
  unfold State.yieldsTo at h
  split at h
  · cases h
  · split at h
    · cases h
    · rename_i h'
      split at h
      · cases h; exact isLive_of_firstEligible h'
      · cases h

theorem decideBoundary_moves (l : Line) (s : State) : Moves scheduleKinds s (decideBoundary l s) := by
  unfold decideBoundary
  split
  · split
    · exact .refl
    · rename_i i _ _ ha
      refine Moves.trans ?_ (select_moves l _)
      split
      · rename_i h
        exact yieldTo_moves l _ _ s (by simpa using ha) (isLive_of_yieldsTo h)
      · exact fetch_moves l s
  · exact .refl

/-- R58: only a class below 7 ages. -/
theorem ageEntry_moves (i : Slot) (s : State) (h : (s.plan i).effClass < 7) :
    Moves [.plan, .sched] s (ageEntry i s) := by
  unfold ageEntry
  have m : Moves [.plan, .sched] s (s.modPlan i fun p => { p with effClass := p.effClass + 1 }) :=
    Moves.refl.via (.one (.plan i _ ⟨Iff.rfl, fun _ => rfl, fun h => .inl h, fun h => .inl ⟨h, rfl⟩, fun hc => by
      exact ⟨Nat.le_succ_of_le hc.1, h⟩⟩))
  dsimp only
  split
  · exact m
  · exact (m.via (leaveQueue_moves _ i _)).via (modSched_moves _ _ _)

/-! ### The ending step of LINE_DISABLE -/

theorem disablePlan_moves (i : Slot) (s : State) : Moves [.plan, .count, .port] s (disablePlan i s) := by
  unfold disablePlan
  split <;> exact endPlan_moves _ _ _ _

theorem plans_queueFinal (i : Slot) (s : State) (j : Slot) :
    ((queueFinal i s).plan j).state = (s.plan j).state ∧ ((queueFinal i s).plan j).line = (s.plan j).line := by
  unfold queueFinal
  by_cases h : j = i
  · subst h
    simp only [State.modPlan_eq, State.plan, State.setPlan, get_upd_self]
    exact ⟨rfl, rfl⟩
  · simp only [State.modPlan_eq, State.plan, State.setPlan, get_upd_ne _ _ h]
    exact ⟨rfl, rfl⟩

/-- Ending a plan leaves every other plan on its line or off it, and takes its own plan off its line. -/
theorem isLive_endPlan (i : Slot) (c : EndCode) (d : FaultDetail) (s : State) (j : Slot) :
    (((endPlan i c d s).plan j).state.isLive = true → j ≠ i ∧ (s.plan j).state.isLive = true) ∧
      ((endPlan i c d s).plan j).line = (s.plan j).line := by
  unfold endPlan
  split
  · rename_i h
    refine ⟨fun hl => ⟨fun hji => ?_, hl⟩, rfl⟩
    subst hji
    revert h hl
    cases (s.plan j).state <;> simp [PlanState.isOver, PlanState.isLive]
  · dsimp only
    have key : ∀ t : State, t = s.modPlan i (·.toEnding c d) →
        ((t.plan j).state.isLive = true → j ≠ i ∧ (s.plan j).state.isLive = true) ∧ (t.plan j).line = (s.plan j).line := by
      intro t ht
      subst ht
      by_cases hji : j = i
      · subst hji
        have hp : (s.modPlan j (·.toEnding c d)).plan j = (s.plan j).toEnding c d := get_upd_self _ _ _
        rw [hp]
        exact ⟨(fun hl => nomatch hl), rfl⟩
      · have hp : (s.modPlan i (·.toEnding c d)).plan j = s.plan j := get_upd_ne _ _ hji
        rw [hp]
        exact ⟨fun hl => ⟨hji, hl⟩, rfl⟩
    split
    · have hq := plans_queueFinal i (s.modPlan i (·.toEnding c d)) j
      rw [hq.1, hq.2]
      exact key _ rfl
    · exact key _ rfl

theorem isLive_disablePlan (i : Slot) (s : State) (j : Slot) :
    (((disablePlan i s).plan j).state.isLive = true → j ≠ i ∧ (s.plan j).state.isLive = true) ∧
      ((disablePlan i s).plan j).line = (s.plan j).line := by
  unfold disablePlan
  split <;> exact isLive_endPlan _ _ _ _ _

theorem isLive_disablePlans (ps : List Slot) (s : State) (j : Slot) :
    (((ps.foldl (fun t i => disablePlan i t) s).plan j).state.isLive = true → j ∉ ps ∧ (s.plan j).state.isLive = true) ∧
      ((ps.foldl (fun t i => disablePlan i t) s).plan j).line = (s.plan j).line := by
  induction ps generalizing s with
  | nil => exact ⟨fun h => ⟨by simp, h⟩, rfl⟩
  | cons i ps ih =>
    rw [List.foldl_cons]
    have h1 := ih (disablePlan i s)
    have h2 := isLive_disablePlan i s j
    refine ⟨fun h => ?_, h1.2.trans h2.2⟩
    have h3 := h1.1 h
    have h4 := h2.1 h3.2
    exact ⟨by simp [h3.1, h4.1], h4.2⟩

theorem isOnLine_eq (p : Plan) (l : Line) : p.isOnLine l = (decide (p.line = l) && p.state.isLive) := by
  unfold Plan.isOnLine
  cases p.state <;> rfl

/-- The kinds of moves of an ending step. -/
abbrev endingKinds : List Kind := .plan :: .walk :: .choice :: .line :: .driver :: .sched :: contextKinds

/-- R13, R136: after the ending step's plans have ended, none stands on the line. -/
theorem noneOnLine (l : Line) (s : State) (i : Slot)
    (h : ((s.inFreeOrder (allSlots.filter fun i => (s.plan i).isOnLine l) disablePlan).plan i).line = l) :
    ((s.inFreeOrder (allSlots.filter fun i => (s.plan i).isOnLine l) disablePlan).plan i).state.isLive = false := by
  unfold State.inFreeOrder at h ⊢
  dsimp only at h ⊢
  generalize hp : freeOrder s.choices (allSlots.filter fun i => (s.plan i).isOnLine l) = r at h ⊢
  have hd := isLive_disablePlans r.1 (s.setChoices r.2) i
  cases hl : ((r.1.foldl (fun t i => disablePlan i t) (s.setChoices r.2)).plan i).state.isLive with
  | false => rfl
  | true =>
    exfalso
    have h1 := hd.1 hl
    have h2 : (s.plan i).line = l := hd.2.symm.trans h
    have h3 : (s.plan i).state.isLive = true := h1.2
    apply h1.1
    have hperm := (freeOrder_perm (allSlots.filter fun i => (s.plan i).isOnLine l) s.choices).mem_iff (a := i)
    rw [hp] at hperm
    rw [hperm, List.mem_filter]
    exact ⟨List.mem_finRange i, by rw [isOnLine_eq, h2, h3]; simp⟩

theorem endingStep_moves (l : Line) (s : State) : Moves endingKinds s (endingStep l s) := by
  unfold endingStep
  have hn := noneOnLine l s
  have m : Moves endingKinds s (s.inFreeOrder (allSlots.filter fun i => (s.plan i).isOnLine l) disablePlan) :=
    inFreeOrder_moves s _ disablePlan rfl fun t i _ => Moves.refl.via (disablePlan_moves i t)
  dsimp only
  generalize s.inFreeOrder (allSlots.filter fun i => (s.plan i).isOnLine l) disablePlan = t at hn m ⊢
  have m2 := ((m.via (leaveWalk_moves l t)).via (modSched_moves l (fun x => { x with holder := none, queue := [] }) _)).via
    (modDriver_moves l (fun d => { d.stopTimers with disable := .writingBack }) _)
  refine Moves.via (m2.via (.one (.lineDown l { t.lineCtl l with state := .disabled, guard := .stopped } rfl
    (Nat.le_refl _) ?_))) (advanceDisable_moves l _)
  exact hn

theorem afterExchange_moves (l : Line) (s : State) : Moves endingKinds s (afterExchange l s) := by
  unfold afterExchange
  split
  · exact endingStep_moves l s
  · exact Moves.refl.via (select_moves l s)

/-! ### The descriptor walk -/

/-- The kinds of moves of a walk that looks up a station. -/
abbrev walkKinds : List Kind := .plan :: .walk :: .sched :: contextKinds

theorem beginExchange_moves (l : Line) (s : State) : Moves (.walk :: contextKinds) s (beginExchange l s) := by
  unfold beginExchange
  dsimp only
  have m : Moves (.walk :: contextKinds) s _ :=
    ((Moves.refl.via (keepPlan_moves (s.slotOf l)
      { s.plan (s.slotOf l) with
        currentAddr := ((s.walk l).group.map (·.addr)).headD (s.plan (s.slotOf l)).currentAddr } s)).via
      (.one (.walk l { s.walk l with state := .exchanging, afterJump := false, tally := 0, writeReject := false }))).via
      (.one (.exch l (Exchange.begin (s.walk l).copy.station)))
  split
  · exact m.via (fetchPayload_moves l _)
  · exact m.via (lookup_moves l _)

theorem growGroup_moves (l : Line) (d : Descriptor) (s : State) : Moves walkKinds s (growGroup l d s) := by
  unfold growGroup
  split
  · exact (Moves.refl.via (modWalk_moves l _ s)).via (fetch_moves l _)
  · exact Moves.refl.via (beginExchange_moves l s)

theorem actOn_moves (l : Line) (d : Descriptor) (s : State) : Moves walkKinds s (actOn l d s) := by
  unfold actOn
  split
  · exact .refl
  · exact (Moves.refl.via (modWalk_moves l _ s)).trans (growGroup_moves l d _)
  · exact (Moves.refl.via (modWalk_moves l _ s)).trans (growGroup_moves l d _)
  · unfold actJump
    exact ((Moves.refl.via (keepPlan_moves _ _ s)).via (modWalk_moves l _ _)).via (passBoundary_moves l _ _)
  · exact Moves.refl.via (modWalk_moves l _ s)

theorem descriptorAnswered_moves (l : Line) (a : ReadAnswer) (s : State) :
    Moves walkKinds s (descriptorAnswered l a s) := by
  unfold descriptorAnswered
  split
  · exact .refl
  · split
    · exact (Moves.refl.via (stopWalk_moves l _ s)).via (select_moves l _)
    · dsimp only
      split
      · exact (Moves.refl.via (stopWalk_moves l _ s)).via (select_moves l _)
      · exact (actOn_moves l _ s).via (select_moves l _)

theorem goOn_moves (l : Line) (last : Word) (chain hold : Bool) (s : State) :
    Moves scheduleKinds s (goOn l last chain hold s) := by
  unfold goOn
  split
  · exact (((Moves.refl.via (keepPlan_moves _ _ s)).via (modWalk_moves l _ _)).via (passBoundary_moves l _ _)).via
      (pumpProgress_moves _ _)
  · exact (Moves.refl.via (keepPlan_moves _ _ s)).trans (runEnd_moves l _)

theorem pauseEnds_moves (l : Line) (s : State) : Moves scheduleKinds s (pauseEnds l s) := by
  unfold pauseEnds
  dsimp only
  have m : Moves scheduleKinds s _ :=
    (Moves.refl.via (modWalk_moves l (fun w => { w with pause := .stopped }) s)).via
      (keepPlan_moves (s.slotOf l) { s.plan (s.slotOf l) with completed := (s.plan (s.slotOf l)).completed + 1 } _)
  refine Moves.trans (Moves.trans ?_ (goOn_moves l _ _ _ _)) (select_moves l _)
  split
  · exact m.via (takeNote_moves _ _)
  · exact m

theorem finishGroup_moves (l : Line) (s : State) : Moves [.count] s (finishGroup l s) := by
  unfold finishGroup
  dsimp only
  have m : Moves [.count] s _ := keepPlan_moves (s.slotOf l)
    { s.plan (s.slotOf l) with completed := (s.plan (s.slotOf l)).completed + (s.walk l).group.length } s
  split
  · exact m.trans (takeNote_moves _ _)
  · exact m

theorem decideAfter_moves (l : Line) (s : State) : Moves scheduleKinds s (decideAfter l s) := by
  unfold decideAfter
  dsimp only
  split
  · exact endHolder_moves l _ _ s
  · split
    · exact stopWalk_moves l _ s
    · have m : Moves scheduleKinds s
          (match (s.walk l).group.getLast? with
            | some m => goOn l m.addr m.chain (s.walk l).copy.hold s
            | none => s) := by
        split
        · exact goOn_moves l _ _ _ s
        · exact .refl
      split <;> split <;> first | exact stopWalk_moves l _ s | exact m

theorem exchangeEnds_moves (l : Line) (s : State) : Moves endingKinds s (exchangeEnds l s) :=
  ((((Moves.refl.via (releasePin_moves l s)).via (modExch_moves l Exchange.over _)).via (finishGroup_moves l _)).via
    (decideAfter_moves l _)).trans (afterExchange_moves l _)

theorem tallyAnswer_moves (l : Line) (accepted : Bool) (s : State) : Moves [.walk] s (tallyAnswer l accepted s) :=
  modWalk_moves l _ s

theorem resultsOfGivenUp_moves (l : Line) (o : ExchangeOutcome) (s : State) :
    Moves contextKinds s (resultsOfGivenUp l o s) := by
  unfold resultsOfGivenUp
  dsimp only
  have m : Moves contextKinds s _ := Moves.refl.via (modExch_moves l (fun e => { e with outcome := some o }) s)
  split
  · exact .refl
  · refine Moves.via (Moves.via ?_ (queueResults_moves l o _)) (finishGroup_moves l _)
    split
    · exact m.via (markEntry_moves l _ _ keepsBucket_forgetToggle)
    · exact m

theorem giveUpExchange_moves (l : Line) (o : ExchangeOutcome) (s : State) :
    Moves contextKinds s (giveUpExchange l o s) :=
  (((Moves.refl.via (withdrawLookup_moves l s)).trans (resultsOfGivenUp_moves l o _)).trans (releasePin_moves l _)).via
    (modExch_moves l Exchange.over _)

theorem cutResolving_moves (l : Line) (s : State) : Moves contextKinds s (cutResolving l s) :=
  ((Moves.refl.via (finishGroup_moves l s)).trans (releasePin_moves l _)).via (modExch_moves l Exchange.over _)

theorem concludeAbandon_moves (l : Line) (s : State) : Moves endingKinds s (concludeAbandon l s) :=
  ((Moves.refl.via (giveUpExchange_moves l _ s)).via (endHolder_moves l _ _ _)).trans (afterExchange_moves l _)

theorem haltNow_moves (l : Line) (s : State) : Moves endingKinds s (haltNow l s) := by
  unfold haltNow
  dsimp only
  refine Moves.trans (Moves.via ?_ (endHolder_moves l _ _ _)) (afterExchange_moves l _)
  split
  · exact Moves.refl.via (giveUpExchange_moves l _ s)
  · exact .refl

theorem payloadAnswered_moves (l : Line) (a : ReadAnswer) (s : State) : Moves endingKinds s (payloadAnswered l a s) := by
  unfold payloadAnswered
  split
  · exact .refl
  · split
    · exact Moves.refl.via (modExch_moves l _ s)
    · exact (((Moves.refl.via (releasePin_moves l s)).via (modExch_moves l Exchange.over _)).via
        (stopWalk_moves l _ _)).trans (afterExchange_moves l _)

end Sys2Proof.Machine
end

