-- ==== Sys2Proof/Laws/Lines.lean ====
section
/-! SUPPORT. The moves of attempts, of the Line Controller and of the Driver Monitor. -/

namespace Sys2Proof.Machine

set_option Elab.async false

/-! ### Changes of a Line Controller -/

/-- A change that leaves a line where it is with respect to DISABLED and adds nothing to its FIFO. -/
theorem keepLine_moves (l : Line) (c : LineController) (s : State)
    (hd : c.state = .disabled ↔ (s.lineCtl l).state = .disabled)
    (hf : c.fifo.length ≤ (s.lineCtl l).fifo.length) : Moves [.line] s (s.setLine l c) :=
  .one (.line l c ⟨hd, .inl hf⟩)

/-- A change that leaves the state of the line. -/
theorem sameState_moves (l : Line) (f : LineController → LineController) (s : State)
    (hd : ∀ c, (f c).state = c.state) (hf : ∀ c, (f c).fifo.length ≤ c.fifo.length) : Moves [.line] s (s.modLine l f) :=
  keepLine_moves l _ s (by rw [hd]) (hf _)

/-- A change between two states other than DISABLED. -/
theorem inUse_moves (l : Line) (f : LineController → LineController) (s : State)
    (h : (s.lineCtl l).state ≠ .disabled) (hd : ∀ c, (f c).state ≠ .disabled)
    (hf : ∀ c, (f c).fifo.length ≤ c.fifo.length) : Moves [.line] s (s.modLine l f) :=
  keepLine_moves l _ s ⟨fun h' => absurd h' (hd _), fun h' => absurd h' h⟩ (hf _)

theorem setInput_moves (l : Line) (v : Level) (s : State) : Moves [.line] s (setInput l v s) :=
  sameState_moves l _ s (fun _ => rfl) fun _ => Nat.le_refl _

theorem enterSettling_moves (l : Line) (s : State) (h : (s.lineCtl l).state ≠ .disabled) :
    Moves [.line] s (enterSettling l s) :=
  inUse_moves l _ s h (fun _ => nofun) fun _ => Nat.le_refl _

theorem enterReady_moves (l : Line) (s : State) (h : (s.lineCtl l).state ≠ .disabled) :
    Moves [.line] s (enterReady l s) := by
  unfold enterReady
  split
  · exact inUse_moves l _ s h (fun _ => nofun) fun _ => Nat.le_refl _
  · exact enterSettling_moves l s h

theorem dropPayloadWait_moves (l : Line) (s : State) : Moves [.port] s (s.setPort (s.port.dropPayloadWait l)) :=
  .one (.port _ (.inl (Nat.le_refl _)))

/-- The kinds of moves of a reception. -/
abbrev receptionKinds : List Kind := .line :: .walk :: contextKinds

theorem emptyFifo_moves (l : Line) (s : State) : Moves receptionKinds s (emptyFifo l s) := by
  unfold emptyFifo
  dsimp only
  have m := sameState_moves l (fun c => { c with fifo := [], frameReceived := false }) s (fun _ => rfl)
    fun _ => Nat.zero_le _
  exact ((Moves.refl.via m).via (dropPayloadWait_moves l _)).via (pumpWaiting_moves _)

/-- Emptying the FIFO leaves the state of every line. -/
theorem state_emptyFifo (l : Line) (s : State) : ((emptyFifo l s).lineCtl l).state = (s.lineCtl l).state := by
  unfold emptyFifo
  dsimp only
  generalize ht : s.modLine l (fun c => { c with fifo := [], frameReceived := false }) = t
  have h := (pumpWaiting_moves (t.setPort (t.port.dropPayloadWait l))).lines_eq
  have h2 : (pumpWaiting (t.setPort (t.port.dropPayloadWait l))).lineCtl l = t.lineCtl l := by
    simp only [State.lineCtl, h]; rfl
  rw [h2, ← ht]
  show ((upd s.lines l _).get l).state = _
  rw [get_upd_self]

/-! ### The end of an attempt -/

theorem attemptEnds_moves (l : Line) (r : AttemptResult) (s : State) : Moves contextKinds s (attemptEnds l r s) := by
  unfold attemptEnds
  dsimp only
  have m : Moves contextKinds s _ := Moves.refl.via (modExch_moves l (fun e =>
    { e with finalResult := some r, everySilent := e.everySilent && decide (r = .noReply), storing := false }) s)
  generalize s.modExch l (fun e =>
    { e with finalResult := some r, everySilent := e.everySilent && decide (r = .noReply), storing := false }) = t at m ⊢
  have m2 : Moves contextKinds s (if r.failsStation = true then changeEntry l StationRecord.fail t else t) := by
    split
    · exact m.via (changeEntry_moves l _ t keepsBucket_fail)
    · exact m
  generalize (if r.failsStation = true then changeEntry l StationRecord.fail t else t) = u at m2 ⊢
  split
  · exact (m2.via (changeEntry_moves l _ u keepsBucket_quarantine)).trans (enterResolving_moves l _ _)
  · split
    · exact m2.via (modExch_moves l _ _)
    · exact m2.trans (enterResolving_moves l _ _)

theorem replyComplete_moves (l : Line) (s : State) : Moves receptionKinds s (replyComplete l s) := by
  unfold replyComplete
  dsimp only
  have m : Moves receptionKinds s _ := Moves.refl.via (sameState_moves l (fun c => { c with frameReceived := false }) s
    (fun _ => rfl) fun _ => Nat.le_refl _)
  refine Moves.via ?_ (attemptEnds_moves l _ _)
  split
  · exact m
  · exact m.via (modExch_moves l _ _)

theorem receptionFails_moves (l : Line) (r : AttemptResult) (s : State) (h : (s.lineCtl l).state ≠ .disabled) :
    Moves receptionKinds s (receptionFails l r s) := by
  unfold receptionFails
  exact ((emptyFifo_moves l s).via (enterSettling_moves l _ (by rw [state_emptyFifo]; exact h))).via
    (attemptEnds_moves l r _)

/-! ### Taking characters -/

theorem Port.length_of_roomForPayload {p : Port} {l : Line} (h : p.roomForPayload l = true) :
    p.queue.length < queueCapacity := by
  simp only [Port.roomForPayload, Bool.and_eq_true, decide_eq_true_eq] at h
  exact h.1

theorem postByte_moves (l : Line) (addr : Word) (b : Byte) (s : State) (h : s.canTake l addr = true) :
    Moves [.port, .walk, .count] s (postByte l addr b s) := by
  unfold postByte
  split
  · exact Moves.refl.via (.one (.port _ (.inl (Nat.le_of_eq (Port.length_mergeByte _ _)))))
  · rename_i hm
    have hr : s.port.roomForPayload l = true := by
      simp only [State.canTake, Bool.or_eq_true] at h
      exact h.resolve_left hm
    have hq := Port.length_of_roomForPayload hr
    refine Moves.via (Moves.via (Moves.refl.via (.one (.port (s.port.join (replyDataEntry s l addr b)) (.inr ?_))))
      (modWalk_moves l _ _)) (keepPlan_moves _ _ _)
    rw [Port.queue_join, List.length_append, List.length_singleton]
    exact hq

theorem storeByte_moves (l : Line) (addr : Word) (b : Byte) (s : State) (h : s.canTake l addr = true) :
    Moves [.port, .walk, .count, .exch] s (storeByte l addr b s) := by
  unfold storeByte
  exact (((Moves.refl.via (postByte_moves l addr b s h)).via (dropPayloadWait_moves l _)).via
    (modExch_moves l _ _)).via (modWalk_moves l _ _)

theorem takePlain_moves (l : Line) (c : Byte) (s : State) : Moves [.exch] s (takePlain l c s) := by
  unfold takePlain
  exact modExch_moves l _ s

theorem drainFifo_moves (n : Nat) (l : Line) (s : State) :
    Moves [.line, .port, .walk, .count, .exch] s (drainFifo n l s) := by
  induction n generalizing s with
  | zero => exact .refl
  | succ n ih =>
    unfold drainFifo
    split
    · exact .refl
    · rename_i c rest hc
      have mp : Moves [.line, .port, .walk, .count, .exch] s (s.modLine l fun x => { x with fifo := rest }) :=
        Moves.refl.via (keepLine_moves l _ s Iff.rfl (by rw [hc]; exact Nat.le_succ _))
      dsimp only
      split
      · exact ((mp.via (takePlain_moves l c _)).via (modExch_moves l _ _)).trans (ih _)
      · split
        · rename_i h
          exact ((mp.via (storeByte_moves l _ c _ h)).via (modExch_moves l _ _)).trans (ih _)
        · exact Moves.refl.via (.one (.port _ (.inl (Nat.le_of_eq (congrArg List.length (Port.queue_waitPayload _ _))))))

theorem takeCharacters_moves (l : Line) (s : State) : Moves receptionKinds s (takeCharacters l s) := by
  unfold takeCharacters
  have m : Moves receptionKinds s _ := (Moves.refl.via (drainFifo_moves 33 l s)).via (pumpWaiting_moves _)
  dsimp only
  split
  · exact m.trans (replyComplete_moves l _)
  · exact m

/-! ### Receiving and sending -/

@[simp] theorem receive_state (c : LineController) (p : Nat) (data : Byte) (gap : Nat) :
    (c.receive p data gap).state = c.state := rfl

theorem characterCompletes_moves (l : Line) (p : Nat) (data : Byte) (parityBit : Bool) (stopBit : Level) (s : State)
    (h : (s.lineCtl l).state ≠ .disabled) :
    Moves receptionKinds s (characterCompletes l p data parityBit stopBit s) := by
  unfold characterCompletes
  have m : Moves receptionKinds s (setInput l stopBit s) := Moves.refl.via (setInput_moves l stopBit s)
  have hs : ((setInput l stopBit s).lineCtl l).state ≠ .disabled := by
    have : (setInput l stopBit s).lineCtl l = { s.lineCtl l with input := stopBit } := get_upd_self _ _ _
    rw [this]; exact h
  dsimp only
  generalize setInput l stopBit s = t at m hs ⊢
  split
  · exact m.trans (receptionFails_moves l _ t hs)
  · rename_i hfull
    split
    · exact m.trans (receptionFails_moves l _ t hs)
    · have m2 : Moves receptionKinds s (t.modLine l (·.receive p data (t.driver l).setup.charGap)) :=
        m.via (.one (.line l _ ⟨Iff.rfl, .inr (by
          simp only [LineController.receive, List.length_append, List.length_singleton]; omega)⟩))
      refine Moves.trans ?_ (takeCharacters_moves l _)
      split
      · have m3 := m2.via (sameState_moves l (fun c => { c with frameReceived := true }) _ (fun _ => rfl)
          fun _ => Nat.le_refl _)
        refine m3.via (enterSettling_moves l _ ?_)
        simp only [State.modLine_eq, State.lineCtl, State.setLine, get_upd_self]
        exact hs
      · exact m2

theorem beginAttempt_moves (l : Line) (s : State) (h : (s.lineCtl l).state ≠ .disabled) :
    Moves [.driver, .walk, .exch, .line] s (beginAttempt l s) := by
  unfold beginAttempt
  dsimp only
  refine ((((Moves.refl.via (modDriver_moves l _ s)).via (modWalk_moves l _ _)).via (modExch_moves l _ _)).via
    (inUse_moves l _ _ h (fun c => ?_) fun c => ?_))
  · unfold LineController.beginAttempt; split <;> nofun
  · unfold LineController.beginAttempt; split <;> exact Nat.le_refl _

theorem enterAborting_moves (l : Line) (s : State) (h : (s.lineCtl l).state ≠ .disabled) :
    Moves [.line] s (enterAborting l s) := inUse_moves l _ s h (fun _ => nofun) fun _ => Nat.le_refl _

theorem beginFrame_moves (l : Line) (s : State) (h : (s.lineCtl l).state ≠ .disabled) :
    Moves [.line, .exch] s (beginFrame l s) :=
  (Moves.refl.via (inUse_moves l (fun c => { c with state := .sending, tx := .frame 1 }) s h (fun _ => nofun)
    fun _ => Nat.le_refl _)).via (modExch_moves l _ _)

theorem frameSent_moves (l : Line) (s : State) (h : (s.lineCtl l).state ≠ .disabled) :
    Moves receptionKinds s (frameSent l s) := by
  unfold frameSent
  split
  · exact (Moves.refl.via (enterSettling_moves l s h)).via (enterResolving_moves l _ _)
  · refine Moves.refl.via (inUse_moves l _ s h (fun _ => ?_) fun _ => ?_)
    · exact nofun
    · exact Nat.le_refl _

theorem abandonAttempt_moves (l : Line) (s : State) : Moves endingKinds s (abandonAttempt l s) := by
  unfold abandonAttempt
  dsimp only
  have m : Moves endingKinds s _ :=
    Moves.refl.via (modExch_moves l (fun e => { e with abandon := true, storing := false }) s)
  generalize s.modExch l (fun e => { e with abandon := true, storing := false }) = t at m ⊢
  split
  · exact m
  · exact m
  · exact m
  · rename_i h
    exact (m.via (enterSettling_moves l t (by rw [h]; nofun))).trans (concludeAbandon_moves l _)
  · rename_i h
    exact ((m.via (emptyFifo_moves l t)).via (enterSettling_moves l _ (by rw [state_emptyFifo, h]; nofun))).trans
      (concludeAbandon_moves l _)
  · exact (m.via (emptyFifo_moves l t)).trans (concludeAbandon_moves l _)

/-! ### Trips and cuts -/

/-- The kinds of moves of a trip. -/
abbrev tripKinds : List Kind := .log :: endingKinds

theorem cutExchange_moves (l : Line) (s : State) : Moves contextKinds s (cutExchange l s) := by
  unfold cutExchange
  split
  · exact .refl
  · split
    · exact cutResolving_moves l s
    · exact giveUpExchange_moves l _ s

theorem cutHolder_moves (l : Line) (s : State) : Moves scheduleKinds s (cutHolder l s) := by
  unfold cutHolder
  split
  · exact Moves.refl.via (leaveWalk_moves l s)
  · split
    · rename_i i _ h
      have m : Moves [.plan] s (s.setPlan i { s.plan i with detailLine := true }) :=
        .one (.plan i _ (.liveToLive (by rw [h]; rfl) (by rw [h]; rfl) rfl id))
      exact (Moves.refl.via m).trans (endHolder_moves l _ _ _)
    · exact endHolder_moves l _ _ s

theorem cutLine_moves (l : Line) (place : Byte) (s : State) (h : (s.lineCtl l).state ≠ .disabled) :
    Moves tripKinds s (cutLine l place s) := by
  unfold cutLine
  have m : Moves tripKinds s (s.modLine l LineController.cut) :=
    Moves.refl.via (inUse_moves l _ s h (fun _ => nofun) fun _ => Nat.zero_le _)
  have m2 := ((((m.via (dropPayloadWait_moves l _)).via
    (pumpWaiting_moves _)).via (modDriver_moves l (fun d => { d with settleTimer := .stopped }) _)).via
    (cutExchange_moves l _)).via (cutHolder_moves l _)
  have m3 := m2.via (recordFault_moves .lineTrip l place 0 _)
  dsimp only
  split
  · exact m3.via (endingStep_moves l _)
  · exact m3

theorem takeOnset_moves (l : Line) (place : Byte) (s : State) : Moves tripKinds s (takeOnset l place s) := by
  unfold takeOnset
  split
  · exact .refl
  · rename_i h
    split
    · exact Moves.refl.via (recordFault_moves _ _ _ _ s)
    · exact cutLine_moves l place s fun h' => h (.inl h')

theorem tripOnset_moves (l : Line) (p : TripPin) (s : State) : Moves tripKinds s (tripOnset l p s) := by
  unfold tripOnset
  have m : Moves tripKinds s (s.modDriver l (·.setPin p true)) := Moves.refl.via (modDriver_moves l _ s)
  dsimp only
  split
  · exact m
  · exact (m.via (modDriver_moves l _ _)).trans (takeOnset_moves l _ _)

theorem tripCleared_moves (l : Line) (p : TripPin) (s : State) : Moves [.driver] s (tripCleared l p s) :=
  modDriver_moves l _ s

theorem sample_moves (l : Line) (n : Int) (s : State) : Moves tripKinds s (sample l n s) := by
  unfold sample
  have m : Moves tripKinds s (s.modDriver l fun d => { d with zone := d.zone.next d.setup.warm d.setup.hot n }) :=
    Moves.refl.via (modDriver_moves l _ s)
  dsimp only
  split
  · exact m.trans (takeOnset_moves l _ _)
  · exact m

/-! ### Bringing up, restoring and taking down -/

theorem settleEnds_moves (l : Line) (s : State) (h : (s.lineCtl l).state ≠ .disabled) :
    Moves (.line :: .driver :: scheduleKinds) s (settleEnds l s) :=
  ((Moves.refl.via (modDriver_moves l _ s)).via (enterReady_moves l _ h)).via (select_moves l _)

theorem settleAtOnce_moves (l : Line) (s : State) : Moves (.line :: .driver :: scheduleKinds) s (settleAtOnce l s) := by
  unfold settleAtOnce
  split
  · rename_i h
    exact settleEnds_moves l s (by rw [h.1]; nofun)
  · exact .refl

/-- R126, R133: a line is powered in an OPEN part, or when it is not DISABLED. -/
theorem power_moves (l : Line) (s : State)
    (h : s.unit.partState = .opened ∨ (s.lineCtl l).state ≠ .disabled) : Moves [.line, .driver] s (power l s) := by
  unfold power
  refine Moves.via (K' := [.driver]) (t := s.modLine l fun c => { c with state := .powering }) ?_ (modDriver_moves l _ _)
  rcases h with h | h
  · exact Moves.refl.via (.one (.lineUp l _ nofun (Nat.le_refl _) h))
  · refine Moves.refl.via (inUse_moves l _ s h (fun _ => ?_) fun _ => Nat.le_refl _)
    nofun

theorem writePowerEpoch_moves (l : Line) (s : State) : Moves [.port] s (writePowerEpoch l s) := handOver_moves _ s

theorem lookAtSources_moves (l : Line) (s : State) : Moves tripKinds s (lookAtSources l s) := by
  unfold lookAtSources
  exact (Moves.refl.via (modDriver_moves l _ s)).trans (inFreeOrder_moves _ _ _ rfl fun t p _ => takeOnset_moves l _ t)

theorem acceptSetup_moves (l : Line) (u : Setup) (a b : Word) (s : State) (h : s.unit.partState = .opened) :
    Moves tripKinds s (acceptSetup l u a b s) := by
  unfold acceptSetup
  exact ((((Moves.refl.via (modDriver_moves l _ s)).via (power_moves l _ (.inl h))).trans (lookAtSources_moves l _)).via
    (writePowerEpoch_moves l _)).via (settleAtOnce_moves l _)

theorem setupAnswered_moves (l : Line) (a : ReadAnswer) (s : State) : Moves tripKinds s (setupAnswered l a s) := by
  unfold setupAnswered
  split
  · exact .refl
  · rename_i h
    split
    · exact Moves.refl.via (postVerdict_moves _ _ _ s)
    · exact acceptSetup_moves l _ _ _ s (by
        simp only [not_or, ne_eq, Decidable.not_not] at h
        exact h.2)

theorem enableLine_moves (k : Agent) (l : Line) (s : State) : Moves [.bank, .port] s (enableLine k l s) := by
  unfold enableLine
  split
  · exact Moves.refl.via (postVerdict_moves _ _ _ s)
  · exact (Moves.refl.via (postPending_moves k s)).via (askRead_moves _ _)

theorem restoreLine_moves (k : Agent) (l : Line) (s : State) :
    Moves (.bank :: .line :: .driver :: scheduleKinds) s (restoreLine k l s) := by
  unfold restoreLine
  dsimp only
  split
  · exact Moves.refl.via (postVerdict_moves _ _ _ s)
  · rename_i h
    have h : (s.lineCtl l).state ≠ .disabled := fun h' => h (by rw [h']; nofun)
    split
    · exact Moves.refl.via (postVerdict_moves _ _ _ s)
    · split
      · exact ((Moves.refl.via (postVerdict_moves _ _ _ s)).via (enterSettling_moves l _ h)).via (select_moves l _)
      · exact ((((Moves.refl.via (modDriver_moves l _ s)).via (postPending_moves k _)).via (power_moves l _ (.inr h))).via
          (writePowerEpoch_moves l _)).via (settleAtOnce_moves l _)

theorem disableLine_moves (k : Agent) (l : Line) (s : State) : Moves endingKinds s (disableLine k l s) := by
  unfold disableLine
  split
  · exact Moves.refl.via (postVerdict_moves _ _ _ s)
  · have m : Moves endingKinds s (postPending k s) := Moves.refl.via (postPending_moves k s)
    dsimp only
    split
    · exact m.via (modDriver_moves l _ _)
    · exact m.trans (endingStep_moves l _)

theorem epochsAnswered_moves (l : Line) (accepted : Bool) (s : State) :
    Moves [.driver, .bank] s (epochsAnswered l accepted s) :=
  (Moves.refl.via (modDriver_moves l _ s)).via (postVerdict_moves _ _ _ _)

end Sys2Proof.Machine
end

