-- ==== Sys2Proof/Laws/Rows.lean ====
section
/-! SUPPORT. The moves of every command and event, and of a step: whatever the part does is a sequence of moves. -/

namespace Sys2Proof.Machine

set_option Elab.async false

/-- Every kind of move. -/
abbrev allKinds : List Kind :=
  [.plan, .count, .life, .sched, .walk, .tally, .exch, .line, .driver, .cache, .alarm, .log, .port, .bank, .unit, .choice, .data, .reset]

/-! ### The Command Unit -/

/-- R154 check 2: a word that passes the checks, but for OPEN and RESET_PART, finds the part OPEN and no OPEN in progress. -/
theorem opened_of_refusal {s : State} {k : Agent} {c : BitVec 4} (h : s.refusal k c = none) (h1 : c ≠ openCode)
    (h2 : c ≠ resetCode) : s.unit.partState = .opened ∧ s.unit.openInProgress = false := by
  unfold State.refusal at h
  split at h
  · cases h
  · split at h
    · cases h
    · rename_i hn
      simp only [Bool.and_eq_true, Bool.not_eq_true', Bool.and_eq_false_iff, decide_eq_true_eq, ne_eq, h1, h2,
        not_false_eq_true, decide_eq_false_iff_not, and_true, Bool.not_eq_false'] at hn
      simp only [not_or, Decidable.not_not] at hn
      exact ⟨hn.1, by simpa using hn.2⟩

/-- The moves of a command word are those of what it does once it has been taken. -/
theorem takeWord_moves {K : List Kind} (k : Agent) (w : CommandWord) (act : State → State) (s : State)
    (hK : K.contains .bank = true)
    (h : ∀ t : State, (w.code ≠ openCode → w.code ≠ resetCode → t.unit.partState = .opened) → Moves K t (act t)) :
    Moves K s (takeWord k w act s) := by
  have hb (x : Bank) : Moves K s (s.setBank k x) := .snoc .refl hK (.bank k x)
  unfold takeWord
  split
  · exact hb _
  · split
    · exact (hb _).snoc hK (.bank k _)
    · rename_i hr
      split
      · exact h s fun h1 h2 => (opened_of_refusal hr h1 h2).1
      · exact (hb _).trans (h _ fun h1 h2 => (opened_of_refusal hr h1 h2).1)

theorem closed_of_not_opened {s : State} (h : ¬s.unit.partState = .opened) : s.unit.partState = .closed := by
  cases hp : s.unit.partState with
  | closed => rfl
  | opened => exact absurd hp h

theorem openPart_moves (k : Agent) (s : State) : Moves [.unit, .bank, .port] s (openPart k s) := by
  unfold openPart
  split
  · exact Moves.refl.via (postVerdict_moves _ _ _ s)
  · rename_i h
    have m : Moves [.unit] s (s.setUnit { s.unit with openInProgress := true }) :=
      .one (.unit _ ⟨rfl, .inl rfl, fun _ h => .inl h, fun _ => .inr (closed_of_not_opened h)⟩)
    exact ((Moves.refl.via m).via (postPending_moves k _)).via (askRead_moves _ _)

/-- R155: a header that passes its checks has legal marks. -/
theorem legalMarks_of_checkHeader {a : ReadAnswer} {h : Header} (hc : checkHeader a = .ok h) :
    legalMarks h.lowMark h.highMark := by
  unfold checkHeader at hc
  split at hc
  · cases hc
  · dsimp only at hc
    repeat' split at hc
    all_goals first | cases hc; done | skip
    rename_i hm _
    cases hc
    simp only [Bool.not_eq_true', Bool.and_eq_false_iff, decide_eq_false_iff_not, not_or, Decidable.not_not] at hm
    exact ⟨hm.1.1, hm.1.2, hm.2⟩

theorem headerAnswered_moves (a : ReadAnswer) (s : State) :
    Moves [.unit, .bank, .alarm, .port, .choice] s (headerAnswered a s) := by
  unfold headerAnswered
  split
  · exact .refl
  · split
    · have m : Moves [.unit] s (s.setUnit { s.unit with openInProgress := false }) :=
        .one (.unit _ ⟨rfl, .inl rfl, fun _ h => .inl h, nofun⟩)
      exact (Moves.refl.via m).via (postVerdict_moves _ _ _ _)
    · rename_i h hc
      have m : Moves [.unit] s (s.setUnit { s.unit with openHeader := some h, openRejected := false }) :=
        .one (.unit _ ⟨rfl, .inl rfl, fun h' he => .inr (by cases he; exact legalMarks_of_checkHeader hc), fun h => .inl h⟩)
      exact (Moves.refl.via m).via (clearLists_moves _)

theorem completeOpen_moves (h : Header) (s : State) (hp : s.unit.openInProgress = true)
    (hh : s.unit.openHeader = some h) : Moves [.port, .sched, .life, .bank] s (completeOpen h s) := by
  have m : Moves [.port, .sched, .life, .bank] s (s.setPort { s.port with windows := h.windows }) :=
    Moves.refl.via (.one (.port _ (.inl (Nat.le_refl _))))
  have m2 (l : Line) (t : State) : Moves [.sched] t (t.modSched l fun x => { x with agingPeriod := h.agingPeriod }) :=
    modSched_moves l _ t
  have m3 := ((((m.via (m2 0 _)).via (m2 1 _)).via (m2 2 _)).via (m2 3 _)).via (.one (.opened h hp hh))
  exact m3.via (postVerdict_moves _ _ _ _)

theorem advanceOpen_moves (s : State) : Moves [.port, .sched, .life, .bank] s (advanceOpen s) := by
  unfold advanceOpen
  split
  · split
    · rename_i hp hh _
      exact completeOpen_moves _ s hp hh
    · exact .refl
  · exact .refl

theorem clearAnswered_moves (k : Agent) (accepted : Bool) (s : State) :
    Moves [.port, .sched, .life, .bank, .alarm, .log, .unit] s (clearAnswered k accepted s) := by
  unfold clearAnswered
  have m : Moves [.port, .sched, .life, .bank, .alarm, .log, .unit] s _ :=
    Moves.refl.via (countWordLost_moves k accepted s)
  generalize countWordLost k accepted s = t at m ⊢
  have m2 := (m.via (alarm_moves k { t.alarm k with op := .none } t (.inl (Nat.le_refl _)))).via (pumpList_moves k _)
  have m3 (u : State) (b : Bool) : Moves [.unit] u (u.setUnit { u.unit with openRejected := b }) :=
    .one (.unit _ ⟨rfl, .inl rfl, fun _ h => .inl h, fun h => .inl h⟩)
  exact (m2.via (m3 _ _)).via (advanceOpen_moves _)

theorem closePart_moves (k : Agent) (s : State) : Moves [.life, .bank] s (closePart k s) := by
  unfold closePart
  split
  · exact Moves.refl.via (postVerdict_moves _ _ _ s)
  · rename_i h
    have m : Moves [.life, .bank] s _ := Moves.refl.via (.one (.closed (by simpa using h)))
    dsimp only
    rw [foldl_resetPlan] at m ⊢
    exact m.via (postVerdict_moves k _ _ _)

theorem pinReset_moves (s : State) : Moves [.reset] s (pinReset s) :=
  .one (.reset _ _ ⟨rfl, .inr (by decide), rfl, rfl⟩)

theorem partReset_moves (k : Agent) (s : State) : Moves [.reset, .bank] s (partReset k s) := by
  unfold partReset
  have m : Moves [.reset, .bank] s ((resetBlocks s).setUnit s.unit.afterResetPart) :=
    Moves.refl.via (.one (.reset s.unit.afterResetPart s.log ⟨rfl, .inl rfl, rfl, rfl⟩))
  exact m.via (modBank_moves k _ _)

/-! ### Commands of the Plan Unit and the Line Scheduler -/

theorem startPlan_moves (k : Agent) (i : Slot) (s : State) (h : s.unit.partState = .opened) :
    Moves [.plan, .bank, .port] s (startPlan k i s) := by
  unfold startPlan
  split
  · exact Moves.refl.via (postVerdict_moves _ _ _ s)
  · rename_i hi
    have hi : (s.plan i).state = .idle := by simpa using hi
    have m : Moves [.plan] s (s.modPlan i fun p => { p with state := .loading, agent := k }) :=
      .one (.plan i _ ⟨by rw [hi]; exact ⟨nofun, nofun⟩, (fun h' => by rw [hi] at h'; cases h'), fun _ => .inr h, nofun, id⟩)
    exact ((Moves.refl.via m).via (postPending_moves k _)).via (askRead_moves _ _)

/-- A plan that is being loaded is given up. -/
theorem dropLoading_moves (i : Slot) (s : State) (h : (s.plan i).state = .loading) :
    Moves [.plan] s (s.setPlan i Plan.reset) :=
  .one (.plan i _ ⟨by rw [h]; exact ⟨nofun, nofun⟩, (fun h' => by rw [h] at h'; cases h'), fun _ => .inl rfl, nofun,
    fun _ => ⟨Nat.le_refl 0, Nat.zero_le 7⟩⟩)

theorem slotAnswered_moves (i : Slot) (a : ReadAnswer) (s : State) :
    Moves (.bank :: scheduleKinds) s (slotAnswered i a s) := by
  unfold slotAnswered
  dsimp only
  split
  · exact .refl
  · rename_i hl
    have hl : (s.plan i).state = .loading := by simpa using hl
    split
    · exact (Moves.refl.via (dropLoading_moves i s hl)).via (postVerdict_moves _ _ _ _)
    · split
      · exact (Moves.refl.via (dropLoading_moves i s hl)).via (postVerdict_moves _ _ _ _)
      · rename_i data _ hc
        have hc' : ¬7 < (byteAt data 0x01).toNat ∧ ¬(s.lineCtl (low2 (byteAt data 0x00))).state = .disabled := by
          unfold State.checkSlotRecord at hc
          repeat' split at hc
          all_goals first | cases hc; done | exact ⟨by assumption, by assumption⟩
        have m : Moves [.plan] s (s.setPlan i (loadedPlan (s.plan i).agent data)) :=
          .one (.plan i _ ⟨by rw [hl]; exact ⟨nofun, nofun⟩, (fun h' => by rw [hl] at h'; cases h'),
            (fun h' => by rw [hl] at h'; cases h'), fun _ => .inr hc'.2,
            fun _ => ⟨Nat.le_refl _, Nat.not_lt.mp hc'.1⟩⟩)
        exact (((Moves.refl.via m).via (joinQueue_moves i _)).via (postVerdict_moves _ _ _ _)).via (select_moves _ _)

theorem haltActive_moves (i : Slot) (s : State) (h : (s.plan i).state = .active) :
    Moves endingKinds s (haltActive i s) := by
  unfold haltActive
  have m : Moves [.plan] s (s.modPlan i fun p => { p with state := .halting }) :=
    .one (.plan i _ (.liveToLive (by rw [h]; rfl) rfl rfl id))
  dsimp only
  split
  · exact (Moves.refl.via m).trans (abandonAttempt_moves _ _)
  · split
    · exact Moves.refl.via m
    · exact haltNow_moves _ s

theorem haltWaiting_moves (i : Slot) (s : State) : Moves (.sched :: [.plan, .count, .port]) s (haltWaiting i s) :=
  (Moves.refl.via (leaveQueue_moves _ i s)).via (endPlan_moves i _ _ _)

theorem haltPlan_moves (k : Agent) (i : Slot) (s : State) : Moves endingKinds s (haltPlan k i s) := by
  have v (c : VerdictCode) (n : Half) : Moves endingKinds s (postVerdict k c n s) :=
    Moves.refl.via (postVerdict_moves k c n s)
  unfold haltPlan
  dsimp only
  split
  · exact v _ _
  · split
    · exact v _ _
    · split
      · exact .refl
      · exact v _ _
      · exact (v _ _).via (haltWaiting_moves i _)
      · exact (v _ _).via (haltWaiting_moves i _)
      · exact (v _ _).via (haltWaiting_moves i _)
      · rename_i h
        exact (v _ _).trans (haltActive_moves i _ h)
      · exact v _ _
      · exact v _ _
      · exact v _ _

theorem freeSlot_moves (i : Slot) (s : State) (h : (s.plan i).state = .ended) :
    Moves (.life :: .choice :: scheduleKinds) s (freeSlot i s) := by
  unfold freeSlot
  have m : Moves (.life :: .choice :: scheduleKinds) s _ := Moves.refl.via (.one (.freed i h))
  dsimp only
  split
  · exact m.via (selectAll_moves _)
  · exact m

theorem releasePlan_moves (k : Agent) (i : Slot) (s : State) :
    Moves (.bank :: .life :: .choice :: scheduleKinds) s (releasePlan k i s) := by
  have v (c : VerdictCode) (n : Half) : Moves (.bank :: .life :: .choice :: scheduleKinds) s (postVerdict k c n s) :=
    Moves.refl.via (postVerdict_moves k c n s)
  unfold releasePlan
  dsimp only
  split
  · exact v _ _
  · split
    · exact v _ _
    · split
      · exact v _ _
      · split
        · exact v _ _
        · rename_i h
          exact (v _ _).via (freeSlot_moves i _ (by simpa using h : (s.plan i).state = .ended))

theorem setFloor_moves (k : Agent) (l : Line) (v : Half) (s : State) :
    Moves (.bank :: scheduleKinds) s (setFloor k l v s) := by
  unfold setFloor
  split
  · exact Moves.refl.via (postVerdict_moves _ _ _ s)
  · have m : Moves (.bank :: scheduleKinds) s _ :=
      (Moves.refl.via (modSched_moves l (fun x => { x with floor := v.toNat }) s)).via
        (postVerdict_moves k .done (BitVec.ofNat 16 (s.sched l).floor) _)
    dsimp only
    split
    · exact m.via (select_moves l _)
    · exact m

theorem flushCommand_moves (k : Agent) (l : Line) (a : Byte) (s : State) :
    Moves contextKinds s (flushCommand k l a s) := by
  unfold flushCommand
  split
  · exact Moves.refl.via (postVerdict_moves _ _ _ s)
  · exact flushStation_moves k _ s

theorem takeAlarms_moves (k : Agent) (n : Half) (s : State) : Moves listKinds s (takeAlarms k n s) := by
  unfold takeAlarms
  have m : Moves listKinds s (postPending k s) := Moves.refl.via (postPending_moves k s)
  exact (m.via (alarm_moves k { (postPending k s).alarm k with take := some n.toNat } _ (.inl (Nat.le_refl _)))).trans
    (pumpList_moves k _)

/-! ### Command words and register accesses -/

/-- The kinds of moves of a command word. -/
abbrev commandKinds : List Kind := [.plan, .count, .life, .sched, .walk, .tally, .exch, .line, .driver, .cache, .alarm, .log, .port, .bank,
  .unit, .choice, .reset]

theorem commandWord_moves (k : Agent) (w : CommandWord) (s : State) : Moves commandKinds s (commandWord k w s) := by
  unfold commandWord
  refine takeWord_moves k w _ s rfl fun t ht => ?_
  by_cases h1 : w.code = openCode
  · rw [if_pos h1]; exact Moves.refl.via (openPart_moves k t)
  rw [if_neg h1]
  by_cases h2 : w.code = closeCode
  · rw [if_pos h2]; exact Moves.refl.via (closePart_moves k t)
  rw [if_neg h2]
  by_cases h3 : w.code = resetCode
  · rw [if_pos h3]; exact Moves.refl.via (partReset_moves k t)
  rw [if_neg h3]
  have hop := ht h1 h3
  by_cases h4 : w.code = startCode
  · rw [if_pos h4]; exact Moves.refl.via (startPlan_moves k _ t hop)
  rw [if_neg h4]
  by_cases h5 : w.code = haltCode
  · rw [if_pos h5]; exact Moves.refl.via (haltPlan_moves k _ t)
  rw [if_neg h5]
  by_cases h6 : w.code = releaseCode
  · rw [if_pos h6]; exact Moves.refl.via (releasePlan_moves k _ t)
  rw [if_neg h6]
  by_cases h7 : w.code = floorCode
  · rw [if_pos h7]; exact Moves.refl.via (setFloor_moves k _ _ t)
  rw [if_neg h7]
  by_cases h8 : w.code = lineEnableCode
  · rw [if_pos h8]; exact Moves.refl.via (enableLine_moves k _ t)
  rw [if_neg h8]
  by_cases h9 : w.code = lineDisableCode
  · rw [if_pos h9]; exact Moves.refl.via (disableLine_moves k _ t)
  rw [if_neg h9]
  by_cases h10 : w.code = lineRestoreCode
  · rw [if_pos h10]; exact Moves.refl.via (restoreLine_moves k _ t)
  rw [if_neg h10]
  by_cases h11 : w.code = flushCode
  · rw [if_pos h11]; exact Moves.refl.via (flushCommand_moves k _ _ t)
  rw [if_neg h11]
  by_cases h12 : w.code = flushLineCode
  · rw [if_pos h12]; exact Moves.refl.via (flushLineFor_moves k _ t)
  rw [if_neg h12]
  by_cases h13 : w.code = alarmsTakenCode
  · rw [if_pos h13]; exact Moves.refl.via (takeAlarms_moves k _ t)
  rw [if_neg h13]
  exact .refl

theorem writeWorkBase_moves (k : Agent) (v : Word) (s : State) : Moves [.unit] s (writeWorkBase k v s) := by
  unfold writeWorkBase
  split
  · refine .one (.unit _ ⟨rfl, .inr ?_, fun _ h => .inl h, fun h => .inl h⟩)
    show v &&& 0xFFFFFF00 &&& 0xFF = 0
    rw [BitVec.and_assoc, show (0xFFFFFF00 : Word) &&& 0xFF = 0#32 from rfl, BitVec.and_zero]
    rfl
  · exact .refl

theorem writeEnable_moves (k : Agent) (v : Word) (s : State) : Moves [.bank] s (writeEnable k v s) := modBank_moves k _ s

theorem writeFaultFirst_moves (k : Agent) (v : Word) (s : State) : Moves [.log] s (writeFaultFirst k v s) := by
  unfold writeFaultFirst
  split
  · exact .one (.log _)
  · exact .refl

theorem writeFaultNext_moves (k : Agent) (v : Word) (s : State) : Moves [.log] s (writeFaultNext k v s) := by
  unfold writeFaultNext
  split
  · exact .one (.log _)
  · exact .refl

theorem readSummary_moves (k : Agent) (first count : Nat) (s : State) :
    Moves [.alarm, .bank, .data] s (readSummary k first count s) := by
  unfold readSummary
  exact ((Moves.refl.via (noteAlarm_moves k s false)).via (modBank_moves k _ _)).via (.one (.data _))

theorem failAccess_moves (k : Agent) (offset : BitVec 6) (isRead : Bool) (s : State) :
    Moves [.log, .data] s (failAccess k offset isRead s) := by
  unfold failAccess
  have m : Moves [.log, .data] s _ :=
    Moves.refl.via (recordFault_moves .accessCheck 0 (BitVec.ofNat 8 (registerOffset offset)) k s)
  dsimp only
  split
  · exact m.via (.one (.data _))
  · exact m

theorem writeRegister_moves (k : Agent) (offset : Nat) (v : Word) (s : State) :
    Moves commandKinds s (writeRegister k offset v s) := by
  unfold writeRegister
  split
  · exact Moves.refl.via (writeWorkBase_moves k v s)
  · split
    · exact Moves.refl.via (writeFaultFirst_moves k v s)
    · split
      · exact Moves.refl.via (writeFaultNext_moves k v s)
      · split
        · exact commandWord_moves k _ s
        · split
          · exact Moves.refl.via (writeEnable_moves k v s)
          · exact .refl

theorem writeAccess_moves (k : Agent) (check : Bool) (offset : BitVec 6) (count : Nat) (v : Word) (s : State) :
    Moves allKinds s (writeAccess k check offset count v s) := by
  unfold writeAccess
  split
  · exact Moves.refl.via (failAccess_moves k offset false s)
  · split
    · exact Moves.refl.via (writeRegister_moves k _ v s)
    · exact .refl

/-! ### Answers -/

/-- The kinds of moves of an answer: all but a reset and a register read. -/
abbrev answerKinds : List Kind := [.plan, .count, .life, .sched, .walk, .tally, .exch, .line, .driver, .cache, .alarm, .log, .port, .bank,
  .unit, .choice]

theorem dropStoring_moves (l : Line) (s : State) : Moves receptionKinds s (dropStoring l s) := by
  unfold dropStoring
  have m : Moves receptionKinds s _ := Moves.refl.via (modExch_moves l (fun e => { e with storing := false }) s)
  dsimp only
  split
  · exact (m.via (dropPayloadWait_moves l _)).trans (takeCharacters_moves l _)
  · exact m

theorem exchangeAnswered_moves (l : Line) (accepted : Bool) (s : State) :
    Moves endingKinds s (exchangeAnswered l accepted s) := by
  unfold exchangeAnswered
  have m : Moves endingKinds s _ := Moves.refl.via (tallyAnswer_moves l accepted s)
  dsimp only
  split
  · split
    · exact m.trans (exchangeEnds_moves l _)
    · exact m
  · split
    · exact m
    · exact m.via (dropStoring_moves l _)

theorem exchangeWriteAnswered_moves (l : Line) (i : Slot) (live accepted : Bool) (s : State) :
    Moves endingKinds s (exchangeWriteAnswered l i live accepted s) := by
  unfold exchangeWriteAnswered
  have m : Moves endingKinds s _ := Moves.refl.via (planWriteAnswered_moves i s)
  dsimp only
  split
  · exact (m.trans (exchangeAnswered_moves l accepted _)).via (pumpProgress_moves i _)
  · exact m.via (reportAfterAnswer_moves i _)

theorem deliverRead_moves (r : ReadRequest) (a : ReadAnswer) (s : State) : Moves answerKinds s (deliverRead r a s) := by
  unfold deliverRead
  split
  · exact .refl
  · split
    · exact Moves.refl.via (headerAnswered_moves a s)
    · exact Moves.refl.via (setupAnswered_moves _ a s)
    · exact Moves.refl.via (slotAnswered_moves _ a s)
    · exact Moves.refl.via (descriptorAnswered_moves _ a s)
    · exact Moves.refl.via (payloadAnswered_moves _ a s)
    · exact Moves.refl.via (stationLoadAnswered_moves _ _ a s)
    · exact Moves.refl.via (takeReadAnswered_moves _ a s)

theorem deliverWrite_moves (e : WriteEntry) (accepted : Bool) (s : State) :
    Moves answerKinds s (deliverWrite e accepted s) := by
  unfold deliverWrite
  split
  · exact Moves.refl.via (exchangeWriteAnswered_moves _ _ _ accepted s)
  · exact Moves.refl.via (exchangeWriteAnswered_moves _ _ _ accepted s)
  · exact Moves.refl.via (progressAnswered_moves _ accepted s)
  · exact Moves.refl.via (finalAnswered_moves _ _ accepted s)
  · exact Moves.refl.via (writeBackAnswered_moves _ _ accepted s)
  · exact Moves.refl.via (entryAnswered_moves _ accepted s)
  · exact Moves.refl.via (appendCountAnswered_moves _ accepted s)
  · exact Moves.refl.via (overflowAnswered_moves _ accepted s)
  · exact Moves.refl.via (moveAnswered_moves _ accepted s)
  · exact Moves.refl.via (takeCountAnswered_moves _ accepted s)
  · exact Moves.refl.via (clearAnswered_moves _ accepted s)
  · exact Moves.refl.via (postVerdict_moves _ _ _ s)
  · exact Moves.refl.via (epochsAnswered_moves _ accepted s)

theorem releaseBus_moves (s : State) : Moves [.port] s (s.setPort s.port.release) := .one (.port _ (.inl (Nat.le_refl _)))

theorem readEnds_moves (r : ReadRequest) (a : ReadAnswer) (s : State) : Moves answerKinds s (readEnds r a s) :=
  (Moves.refl.via (releaseBus_moves s)).trans (deliverRead_moves r a _)

theorem writeEnds_moves (e : WriteEntry) (accepted : Bool) (s : State) : Moves answerKinds s (writeEnds e accepted s) := by
  unfold writeEnds
  have m : Moves [.port] s (s.setPort s.port.leaveHead) :=
    .one (.port _ (.inl (by rw [Port.length_leaveHead]; exact Nat.sub_le _ _)))
  exact ((Moves.refl.via m).via (pumpWaiting_moves _)).trans (deliverWrite_moves e accepted _)

theorem answerRead_moves (isKind : ReadOp → Bool) (a : ReadAnswer) (s : State) :
    Moves answerKinds s (answerRead isKind a s) := by
  unfold answerRead
  split
  · split
    · exact readEnds_moves _ a s
    · exact .refl
  · exact .refl

theorem answerWrite_moves (isKind : WriteOp → Bool) (a : WriteAnswer) (s : State) :
    Moves answerKinds s (answerWrite isKind a s) := by
  unfold answerWrite
  split
  · split
    · exact writeEnds_moves _ _ s
    · exact .refl
  · split
    · exact Moves.refl.via (releaseBus_moves s)
    · exact .refl
  · exact .refl

theorem answerTimesOut_moves (s : State) : Moves answerKinds s (answerTimesOut s) := by
  unfold answerTimesOut
  split
  · exact .refl
  · split
    · exact readEnds_moves _ _ s
    · exact writeEnds_moves _ _ s
    · exact Moves.refl.via (releaseBus_moves s)
    · exact .refl

/-! ### Events -/

theorem intervalExpires_moves (i : Slot) (s : State) : Moves scheduleKinds s (intervalExpires i s) := by
  unfold intervalExpires
  split
  · exact Moves.refl.via (keepPlan_moves i _ s)
  · exact Moves.refl.via (keepPlan_moves i _ s)
  · exact Moves.refl.via (keepPlan_moves i _ s)
  · rename_i h
    have m : Moves [.plan] s (s.modPlan i fun p => { p with intervalTimer := .stopped, state := .queued }) :=
      .one (.plan i _ (.liveToLive (by rw [h]; rfl) rfl rfl id))
    exact ((Moves.refl.via m).via (joinQueue_moves i _)).trans (select_moves _ _)
  · exact .refl

/-- The input of a line goes to space or to mark, and the line may settle anew. -/
theorem settleAgain_moves (l : Line) (s : State) : Moves [.line] s
    (match (s.lineCtl l).state with
      | .settling => enterSettling l s
      | .ready => enterSettling l s
      | _ => s) := by
  split
  · rename_i h; exact enterSettling_moves l s (by rw [h]; nofun)
  · rename_i h; exact enterSettling_moves l s (by rw [h]; nofun)
  · exact .refl

theorem activity_moves (l : Line) (s : State) : Moves [.line] s (activity l s) :=
  (setInput_moves l .space s).trans (settleAgain_moves l _)

theorem startBit_moves (l : Line) (s : State) : Moves [.line] s (startBit l s) := by
  unfold startBit
  refine Moves.trans (setInput_moves l .space s) ?_
  dsimp only
  split
  · rename_i h
    exact inUse_moves l _ _ (by rw [h]; nofun) (fun _ => nofun) fun _ => Nat.le_refl _
  · exact sameState_moves l _ _ (fun _ => rfl) fun _ => Nat.le_refl _
  · rename_i h; exact enterSettling_moves l _ (by rw [h]; nofun)
  · rename_i h; exact enterSettling_moves l _ (by rw [h]; nofun)
  · exact .refl

theorem returnToMark_moves (l : Line) (s : State) : Moves [.line] s (returnToMark l s) :=
  sameState_moves l _ s (fun _ => rfl) fun _ => Nat.le_refl _

/-- The state that a command or event leaves: every meaning answers one (log 3). -/
theorem exec_next (c : Instr) (s : State) : ∃ t, exec c s = .next t := by
  cases c <;> exact ⟨_, rfl⟩

/-- What any command or event can do. -/
theorem exec_moves (c : Instr) (s t : State) (h : exec c s = .next t) : Moves allKinds s t := by
  have word {K : List Kind} {k : Agent} {w : CommandWord} {act : State → State}
      (hK : K.all allKinds.contains = true) (hb : K.contains .bank = true)
      (hm : ∀ u : State, (w.code ≠ openCode → w.code ≠ resetCode → u.unit.partState = .opened) → Moves K u (act u)) :
      Moves allKinds s (takeWord k w act s) := (takeWord_moves k w act s hb hm).mono hK
  cases c <;> cases h
  case openPart k => exact word (K := [.unit, .bank, .port]) rfl rfl fun u _ => openPart_moves k u
  case closePart k => exact word (K := [.life, .bank]) rfl rfl fun u _ => closePart_moves k u
  case resetPart k => exact word (K := [.reset, .bank]) rfl rfl fun u _ => partReset_moves k u
  case start k i =>
    exact word (K := [.plan, .bank, .port]) rfl rfl fun u hu => startPlan_moves k i u
      (hu (show startCode ≠ openCode by decide) (show startCode ≠ resetCode by decide))
  case halt k i => exact word (K := endingKinds) rfl rfl fun u _ => haltPlan_moves k i u
  case release k i =>
    exact word (K := .bank :: .life :: .choice :: scheduleKinds) rfl rfl fun u _ => releasePlan_moves k i u
  case floor k l v => exact word (K := .bank :: scheduleKinds) rfl rfl fun u _ => setFloor_moves k l v u
  case lineEnable k l => exact word (K := [.bank, .port]) rfl rfl fun u _ => enableLine_moves k l u
  case lineDisable k l => exact word (K := endingKinds) rfl rfl fun u _ => disableLine_moves k l u
  case lineRestore k l =>
    exact word (K := .bank :: .line :: .driver :: scheduleKinds) rfl rfl fun u _ => restoreLine_moves k l u
  case flush k l a => exact word (K := contextKinds) rfl rfl fun u _ => flushCommand_moves k l a u
  case flushLine k l => exact word (K := contextKinds) rfl rfl fun u _ => flushLineFor_moves k l u
  case alarmsTaken k n => exact word (K := listKinds) rfl rfl fun u _ => takeAlarms_moves k n u
  case workBaseWrite k v => exact Moves.refl.via (writeWorkBase_moves k v s)
  case enableWrite k v => exact Moves.refl.via (writeEnable_moves k v s)
  case summaryRead k f n => exact Moves.refl.via (readSummary_moves k f n s)
  case faultFirstWrite k v => exact Moves.refl.via (writeFaultFirst_moves k v s)
  case faultNextWrite k v => exact Moves.refl.via (writeFaultNext_moves k v s)
  case registerWrite k c o n v => exact writeAccess_moves k c o n v s
  case accessCheck k o r => exact Moves.refl.via (failAccess_moves k o r s)
  case resetPin => exact Moves.refl.via (pinReset_moves s)
  case tripOnset l p => exact Moves.refl.via (tripOnset_moves l p s)
  case tripSourceCleared l p => exact Moves.refl.via (tripCleared_moves l p s)
  case temperatureSample l n =>
    split
    · exact .refl
    · exact Moves.refl.via (sample_moves l n s)
  case budgetWindowExpiry l =>
    split
    · exact Moves.refl.via (modDriver_moves l _ s)
    · exact .refl
  case drainExpiry l =>
    split
    · exact Moves.refl.via (modDriver_moves l _ s)
    · exact .refl
  case settleExpiry l =>
    split
    · rename_i h
      exact Moves.refl.via (settleEnds_moves l s (by rw [h.1]; nofun))
    · exact .refl
  case intervalExpiry i =>
    split
    · exact Moves.refl.via (intervalExpires_moves i s)
    · exact .refl
  case agingExpiry i =>
    split
    · rename_i h
      exact Moves.refl.via (ageEntry_moves i s h.2)
    · exact .refl
  case pauseExpiry l =>
    split
    · exact Moves.refl.via (pauseEnds_moves l s)
    · exact .refl
  case backoffExpiry l =>
    split
    · exact Moves.refl.via (modExch_moves l _ s)
    · exact .refl
  case boundaryDecision l => exact Moves.refl.via (decideBoundary_moves l s)
  case attemptBegin l =>
    split
    · rename_i h
      simp only [State.canBegin, Bool.and_eq_true, decide_eq_true_eq] at h
      exact Moves.refl.via (beginAttempt_moves l s (by rw [h.1.2]; nofun))
    · exact .refl
  case wakeLeadSent l =>
    split
    · exact .refl
    · rename_i h
      have h : (s.lineCtl l).state ≠ .disabled := fun h' => h (by rw [h']; nofun)
      split
      · exact Moves.refl.via (enterAborting_moves l s h)
      · exact Moves.refl.via (beginFrame_moves l s h)
  case requestFrameSent l =>
    split
    · exact .refl
    · rename_i h
      have h : (s.lineCtl l).state ≠ .disabled := fun h' => h (by rw [h']; nofun)
      split
      · exact Moves.refl.via (enterAborting_moves l s h)
      · exact Moves.refl.via (frameSent_moves l s h)
  case replyStartTimeout l =>
    split
    · rename_i h
      exact (Moves.refl.via (enterSettling_moves l s (by rw [h.1]; nofun))).via (attemptEnds_moves l _ _)
    · exact .refl
  case replyCharacter l d p b =>
    split
    · rename_i h _
      exact Moves.refl.via (characterCompletes_moves l _ d p b s (by rw [h]; nofun))
    · exact .refl
  case characterGapExpiry l =>
    split
    · rename_i h
      exact Moves.refl.via (receptionFails_moves l _ s (by rw [h.1]; nofun))
    · exact .refl
  case payloadByteTaken l =>
    split
    · exact Moves.refl.via (takeCharacters_moves l s)
    · exact .refl
  case lineActivity l => exact Moves.refl.via (activity_moves l s)
  case guardExpiry l =>
    split
    · rename_i h
      exact Moves.refl.via (enterReady_moves l s (by rw [h.1]; nofun))
    · exact .refl
  case abortExpiry l =>
    split
    · rename_i h
      exact (Moves.refl.via (enterSettling_moves l s (by rw [h.1]; nofun))).via (concludeAbandon_moves l _)
    · exact .refl
  case requestIssue =>
    exact Moves.refl.via (.one (.port _ (.inl (Nat.le_of_eq (congrArg List.length (Port.queue_issue s.port))))))
  case answerTimeout => exact Moves.refl.via (answerTimesOut_moves s)
  case slotLoadAnswer a => exact Moves.refl.via (answerRead_moves _ a s)
  case descriptorReadAnswer a => exact Moves.refl.via (answerRead_moves _ a s)
  case payloadReadAnswer a => exact Moves.refl.via (answerRead_moves _ a s)
  case stationLoadAnswer a => exact Moves.refl.via (answerRead_moves _ a s)
  case takeReadAnswer a => exact Moves.refl.via (answerRead_moves _ a s)
  case headerReadAnswer a => exact Moves.refl.via (answerRead_moves _ a s)
  case setupReadAnswer a => exact Moves.refl.via (answerRead_moves _ a s)
  case replyDataWriteAnswer a => exact Moves.refl.via (answerWrite_moves _ a s)
  case resultWriteAnswer a => exact Moves.refl.via (answerWrite_moves _ a s)
  case progressWriteAnswer a => exact Moves.refl.via (answerWrite_moves _ a s)
  case finalStatusWriteAnswer a => exact Moves.refl.via (answerWrite_moves _ a s)
  case writebackAnswer a => exact Moves.refl.via (answerWrite_moves _ a s)
  case alarmEntryWriteAnswer a => exact Moves.refl.via (answerWrite_moves _ a s)
  case alarmCountWriteAnswer a => exact Moves.refl.via (answerWrite_moves _ a s)
  case moveWriteAnswer a => exact Moves.refl.via (answerWrite_moves _ a s)
  case takeCountWriteAnswer a => exact Moves.refl.via (answerWrite_moves _ a s)
  case clearCountWriteAnswer a => exact Moves.refl.via (answerWrite_moves _ a s)
  case powerEpochWriteAnswer a => exact Moves.refl.via (answerWrite_moves _ a s)
  case epochWriteAnswer a => exact Moves.refl.via (answerWrite_moves _ a s)
  case startBitConfirmed l => exact Moves.refl.via (startBit_moves l s)
  case sentCharacterComplete l =>
    split
    · exact .refl
    · rename_i h
      have h : (s.lineCtl l).state ≠ .disabled := fun h' => h (by rw [h']; exact ⟨nofun, nofun⟩)
      split
      · exact Moves.refl.via (enterAborting_moves l s h)
      · exact Moves.refl.via (sameState_moves l _ s (fun _ => rfl) fun _ => Nat.le_refl _)
  case inputReturnsToMark l => exact Moves.refl.via (returnToMark_moves l s)

/-- What a step can do: it takes a command from the queue, or idles, and the rest is moves. -/
theorem step_moves (s t : State) (h : step s = .next t) :
    ∃ q : List Instr, Moves allKinds (s.setPending q) t := by
  unfold step at h
  split at h
  · rename_i hq
    cases h
    exact ⟨s.pending, .refl⟩
  · exact ⟨_, exec_moves _ _ _ h⟩

end Sys2Proof.Machine
end

