-- ==== Sys2Proof/Laws/Shared.lean ====
section
/-! SUPPORT. What the operations shared by many rows do, said once in the terms of Safety.lean: a command word that is taken,
an answer to the read or the write on the bus, banks and verdicts. -/

namespace Sys2Proof.Machine

set_option Elab.async false

/-! ### Banks and verdicts -/

@[simp] theorem setBank_setBank (s : State) (k : Agent) (x y : Bank) : (s.setBank k x).setBank k y = s.setBank k y := by
  simp [State.setBank]

theorem bank_posted (s : State) (k j : Agent) (c : BitVec 4) (v : VerdictCode) (n : Half) :
    (s.posted k c v n).bank j = if j = k then
      { s.bank k with command := none, verdict := { code := v, value := n, command := c }, flushWait := .none }
    else s.bank j := get_upd _ _ _ _

/-- R153: a verdict posted at once for a word just taken. -/
theorem postVerdict_taken (s : State) (k : Agent) (w : CommandWord) (v : VerdictCode) (n : Half) :
    postVerdict k v n (s.setBank k { s.bank k with command := some w }) = s.posted k w.code v n := by
  unfold postVerdict State.posted
  rw [State.modBank_eq, setBank_setBank]
  simp [Bank.post, Bank.commandCode]

/-- R152: PENDING for a word just taken. -/
theorem postPending_taken (s : State) (k : Agent) (w : CommandWord) :
    postPending k (s.setBank k { s.bank k with command := some w }) = s.inProgress k w := by
  unfold postPending State.inProgress
  rw [State.modBank_eq, setBank_setBank]
  simp [Bank.postPending, Bank.commandCode]

/-! ### Command words -/

/-- Every event that writes a COMMAND register hands its word to `takeWord`. -/
theorem exec_command {c : Instr} {k : Agent} {w : CommandWord} (s : State) (h : commandOf c = some (k, w)) :
    ∃ act : State → State, exec c s = .next (takeWord k w act s) := by
  cases c
  case registerWrite j check offset count value =>
    unfold commandOf at h
    dsimp only at h
    split at h
    · rename_i hh
      obtain ⟨rfl, rfl, rfl⟩ := hh
      cases h
      have e : exec (.registerWrite k (checkBit k) 0x14 4 value) s = .next (commandWord k (commandWordOf value) s) := by
        show Host.Outcome.next (writeAccess k (checkBit k) 0x14 4 value s) = _
        unfold writeAccess
        rw [if_neg (by simp), if_pos (by decide)]
        rfl
      unfold commandWord at e
      exact ⟨_, e⟩
    · cases h
  all_goals first | (cases h; done) | (cases h; exact ⟨_, rfl⟩)

/-- R152: a word written while a command is in progress is dropped. -/
theorem takeWord_dropped {s : State} {k : Agent} {w : CommandWord} (act : State → State) (h : (s.bank k).command ≠ none)
    (hr : ¬(k = 0 ∧ w.code = resetCode)) :
    takeWord k w act s = s.setBank k { s.bank k with overrun := true } := by
  unfold takeWord
  rw [if_pos]
  · rfl
  · rw [Bool.and_eq_true]
    refine ⟨by cases hc : (s.bank k).command <;> simp_all, ?_⟩
    rw [Bool.not_eq_true', Bool.and_eq_false_iff, decide_eq_false_iff_not, decide_eq_false_iff_not]
    exact Decidable.not_and_iff_or_not.mp hr

/-- R154: a word that fails a check gets its verdict. -/
theorem takeWord_refused {s : State} {k : Agent} {w : CommandWord} {v : VerdictCode} (act : State → State)
    (h : (s.bank k).command = none) (hr : s.refusal k w.code = some v) :
    takeWord k w act s = s.posted k w.code v 0 := by
  unfold takeWord
  rw [if_neg (by simp [h]), hr]
  exact postVerdict_taken s k w v 0

theorem refusal_of_accepts {s : State} {k : Agent} {c : BitVec 4} (h : s.Accepts k c) : s.refusal k c = none := by
  obtain ⟨_, h2, h3, h4⟩ := h
  unfold State.refusal
  rw [if_neg (by simp [h2]), if_neg, if_neg]
  · cases ha : isAdminCode c with
    | false => simp
    | true => simp [h4 ha]
  · rcases h3 with h3 | h3 | h3 <;> simp [h3]

/-- R154: a word that passes the checks is handed to its owner; but for RESET_PART it is the agent's command in progress. -/
theorem takeWord_accepted {s : State} {k : Agent} {w : CommandWord} (act : State → State) (h : s.Accepts k w.code)
    (hr : w.code ≠ resetCode) : takeWord k w act s = act (s.setBank k { s.bank k with command := some w }) := by
  unfold takeWord
  rw [if_neg (by simp [h.1]), refusal_of_accepts h]
  simp only [if_neg hr]
  rfl

/-- R158: RESET_PART of agent 0 is always taken. -/
theorem takeWord_reset (act : State → State) (s : State) : takeWord 0 (wordOf resetCode 0 0 0) act s = act s := by
  have hr : s.refusal 0 resetCode = none := by
    unfold State.refusal
    rw [if_neg (by decide), if_neg (by simp), if_neg (by simp)]
  unfold takeWord
  rw [if_neg (by simp [wordOf]), show (wordOf resetCode 0 0 0).code = resetCode from rfl, hr]
  simp only [if_true]

/-! ### Answers -/

/-- R166: an answer of the right kind and length reaches the read on the bus. -/
theorem answerRead_reading {s : State} {r : ReadRequest} (isKind : ReadOp → Bool) (a : ReadAnswer) (h : s.Reading r)
    (hk : isKind r.op = true) (hl : a.hasLength r.length = true) :
    answerRead isKind a s = deliverRead r a s.afterRead := by
  unfold answerRead
  rw [h.1]
  simp only [hk, hl, Bool.and_true, if_true]
  rfl

/-- R166: an answer of the right kind reaches the write on the bus. -/
theorem answerWrite_writing {s : State} {e : WriteEntry} (isKind : WriteOp → Bool) (a : WriteAnswer) (h : s.Writing e)
    (hk : isKind e.op = true) : answerWrite isKind a s = deliverWrite e (acceptedBy a) s.afterWrite := by
  unfold answerWrite
  obtain ⟨h1, h2⟩ := h
  cases hq : s.port.queue with
  | nil => rw [hq] at h2; cases h2
  | cons x rest =>
    rw [hq] at h2
    cases h2
    rw [h1]
    simp only [hk, if_true]
    rfl

/-- The kinds of moves of the joining of writes that wait. -/
theorem afterWrite_moves (s : State) : Moves contextKinds s s.afterWrite := by
  have m : Moves [.port] s (s.setPort s.port.leaveHead) :=
    .one (.port _ (.inl (by rw [Port.length_leaveHead]; exact Nat.sub_le _ _)))
  exact (Moves.refl.via m).trans (pumpWaiting_moves _)

/-- An entry finds its place in a queue by the plan contexts alone. -/
theorem placeEntry_congr {s t : State} (h : t.plans = s.plans) (e : QueueEntry) (q : List QueueEntry) :
    t.placeEntry e q = s.placeEntry e q := by
  induction q with
  | nil => rfl
  | cons x q ih =>
    have hb : t.standsBefore e x = s.standsBefore e x := by
      cases s; cases t; cases h; rfl
    simp only [State.placeEntry, hb, ih]

end Sys2Proof.Machine
end

