-- ==== Sys2Proof/Tests/Slice0.lean ====
section
/-! SUPPORT. Tests: ill-formed terms that the check refuses, one step of most commands on a small state, and for each
statement of Obligations.lean states and operands that meet the premises of each of its clauses (`test_witness_…`). -/

namespace Sys2Proof.Tests

open Sys2Proof.Machine

/- The theorems are elaborated one after another: the evaluations side by side would take too many threads. -/
set_option Elab.async false

/-! ### Well-formedness -/

theorem test_ill_formed_accesses :
    WellFormed (.summaryRead 0 0 0) = false ∧ WellFormed (.summaryRead 0 2 3) = false ∧
      WellFormed (.registerWrite 0 false 8 0 0) = false ∧ WellFormed (.registerWrite 0 false 9 4 0) = false := by decide

theorem test_ill_formed_answers :
    WellFormed (.slotLoadAnswer (.accept [])) = false ∧
      WellFormed (.descriptorReadAnswer (.accept (List.replicate 31 0))) = false ∧
      WellFormed (.payloadReadAnswer (.accept [])) = false ∧
      WellFormed (.payloadReadAnswer (.accept (List.replicate 241 0))) = false ∧
      WellFormed (.stationLoadAnswer (.accept (List.replicate 33 0))) = false ∧
      WellFormed (.takeReadAnswer (.accept [0, 0, 0])) = false ∧
      WellFormed (.takeReadAnswer (.accept [0, 0, 0, 0, 0])) = false ∧
      WellFormed (.takeReadAnswer (.accept (List.replicate 64 0))) = false ∧
      WellFormed (.headerReadAnswer (.accept [])) = false ∧
      WellFormed (.setupReadAnswer (.accept [])) = false := by decide +kernel

theorem test_well_formed :
    WellFormed (.summaryRead 0 0 4) = true ∧ WellFormed (.registerWrite 1 true 0x14 4 0) = true ∧
      WellFormed (.payloadReadAnswer (.accept (List.replicate 240 0))) = true ∧
      WellFormed (.takeReadAnswer (.accept (List.replicate 60 0))) = true ∧
      WellFormed (.slotLoadAnswer .reject) = true ∧ WellFormed .resetPin = true := by decide +kernel

theorem test_no_word_spells_a_command : decodeTableWord 32 0x304 = none := rfl

/-! ### Small states -/

/-- An OPEN part with marks 1 and 2 and one window for every agent. -/
def part : State :=
  { State.reset with
    unit := { CommandUnit.reset with partState := .opened },
    backlog := { Backlog.reset with lowMark := 1, highMark := 2 },
    port := { Port.reset with windows := Vector.replicate 4 { base := 0x1000, limit := 0x9000 } } }

/-- A read with this operation. -/
def read (op : ReadOp) (n : Nat) : ReadRequest :=
  { addr := 0, length := n, agent := 1, requester := .cache, op := op, live := true }

/-- A read on the bus. -/
def reading (op : ReadOp) (n : Nat) (s : State) : State :=
  s.setPort { s.port with bus := some (.read (read op n)), answerTimer := .running 2 }

/-- A write with this operation. -/
def write (op : WriteOp) : WriteEntry := { addr := 0, data := [0], agent := 1, writer := .cache, op := op }

/-- A write on the bus. -/
def writing (op : WriteOp) (s : State) : State :=
  s.setPort { s.port with queue := [write op], bus := some .headWrite, answerTimer := .running 2 }

/-- Slot 3 holds a plan of agent 1 on line 0. -/
def withPlan (x : PlanState) (s : State) : State := s.setPlan 3 { Plan.reset with state := x, agent := 1 }

/-- Line 0 in a state. -/
def lineIn (x : LineState) (s : State) : State := s.setLine 0 { s.lineCtl 0 with state := x }

/-- The plan of slot 3 holds line 0, and its walk is in a state. -/
def held (w : WalkState) (s : State) : State :=
  (s.setSched 0 { s.sched 0 with holder := some 3 }).setWalk 0 { s.walk 0 with state := w, holder := 3 }

/-- An exchange of slot 3 in a phase on line 0. -/
def exchanging (x : Phase) (s : State) : State :=
  (held .exchanging s).setExch 0 { s.exch 0 with phase := x, station := 7 }

/-- Agent 1 has a command in progress. -/
def busy : State := part.setBank 1 { part.bank 1 with command := some (wordOf startCode 0 3 0) }

/-- A key whose set is 7. -/
def key : Key := { line := 0, station := 7 }

/-- Way 14, the first of set 7, in a condition with the key. -/
def wayIn (c : WayCondition) (s : State) : State := s.setWay 14 { Way.reset with condition := c, key := key }

/-- Way 14 with a copy that has changed. -/
def dirtyWay (s : State) : State := s.setWay 14 { Way.reset with condition := .valid, key := key, dirty := true }

/-- A part whose exchange on line 0 looks up station 7. -/
def looking : State := exchanging .preparing part

/-- A pause of the plan of slot 3 whose descriptor has these flags. -/
def pausing (flags : Byte) : State :=
  let s := held .pausing (withPlan .active (lineIn .ready part))
  s.setWalk 0 { s.walk 0 with pause := .running 9, copy := { Descriptor.reset with flags := flags } }

/-- A posting queue without room. -/
def fullQueue (s : State) : State := s.setPort { s.port with queue := List.replicate 16 (write (.clearCount 0)) }

/-- The state after a command, the state itself where it stops. -/
def after (c : Instr) (s : State) : State :=
  match exec c s with
  | .next t => t
  | _ => s

/-! ### One step of a command -/

theorem test_open : (after (.openPart 0) State.reset).port.reads.map (·.length) = [64] := by decide +kernel

theorem test_start :
    ((after (.start 1 3) part).plan 3).state = .loading ∧
      (after (.start 1 3) part).port.reads.map (·.addr) = [0x200] := by decide +kernel

theorem test_start_refused : ((after (.start 1 3) (withPlan .queued part)).bank 1).verdict.code = .slotInUse := by decide +kernel

theorem test_halt_of_queued :
    ((after (.halt 0 3) (withPlan .queued part)).plan 3).endCode = .halted ∧
      (after (.halt 0 3) (withPlan .queued part)).port.queue.length = 1 := by decide +kernel

theorem test_release_of_agent_2 : ((after (.release 2 3) (withPlan .ended part)).bank 2).verdict.code = .notPermitted := by decide +kernel

theorem test_floor : ((after (.floor 2 1 9) part).bank 2).verdict.code = .invalidArgument ∧ ((after (.floor 2 1 8) part).sched 1).floor = 8 := by
  decide +kernel

theorem test_command_word :
    (((after (.registerWrite 1 true 0x14 4 0x304) part).plan 3).state = .loading) ∧
      after (.registerWrite 1 true 0x14 2 0x304) part = part := by decide +kernel

theorem test_failed_access : (after (.accessCheck 2 0x16 true) part).log.place = 0x14 := by decide +kernel

theorem test_work_base : (after (.workBaseWrite 0 0x12345678) State.reset).unit.workBase = 0x12345600 := by decide +kernel

theorem test_attempt_begins :
    ((after (.attemptBegin 0) (lineIn .ready (exchanging .budgetWait part))).lineCtl 0).state = .sending := by decide +kernel

theorem test_trip_cuts :
    ((after (.tripOnset 0 .tripInput) (exchanging .budgetWait (withPlan .active (lineIn .ready part)))).plan 3).faultDetail = .lineCut := by
  decide +kernel

theorem test_reply_lead :
    ((after (.replyCharacter 0 0xB4 false .mark)
      ((exchanging .onLine part).setLine 0 { part.lineCtl 0 with state := .receiving, rx := some 1 })).lineCtl 0).rx = some 2 := by
  decide +kernel

theorem test_request_frame :
    requestFrame 7 (controlCharacter true false) 3 [0x11] = [0xD2, 7, 1, 3, 1, 0x11, 0x1D, 0x15] := by decide +kernel

/-- A 55h character with and without parity, the bit rate of code 3, and the least and the greatest speed code's times. -/
theorem test_character :
    characterLevels false 0x55 = [.space, .mark, .space, .mark, .space, .mark, .space, .mark, .space, .mark] ∧
      characterLevels true 1 = [.space, .mark, .space, .space, .space, .space, .space, .space, .space, .mark, .mark] ∧
      bitRate 3 = 2400 ∧ characterTime 0 false = 33333 ∧ characterTime 7 true = 286 := by decide +kernel

/-- R75: the cursor moves to the first buffer for an attempt that is stored, and stays for a STALE one. -/
theorem test_cursor_restarts :
    let e : Exchange := { Exchange.reset with taken := 4, cursorMember := 2, cursorOffset := 3 }
    (e.takeHeader 8 [] false).cursorMember = 0 ∧ (e.takeHeader 8 [] true).cursorMember = 2 ∧
      ({ e with sentToggle := true }.takeHeader 8 [] false).cursorOffset = 3 := by decide +kernel

theorem test_reset_part_abandons : ((after (.resetPart 0) busy).bank 1).verdict.code = .abandoned := by decide +kernel

theorem test_idle : step State.reset = .next State.reset := rfl

/-! ### Witnesses: steps, commands and resets -/

theorem test_witness_StepRunsFrontCommand : (part.setPending [.resetPin]).pending = [.resetPin] ∧ part.pending = [] := by decide

theorem test_witness_CommandWordChecked :
    commandOf (.start 1 3) = some (1, wordOf startCode 0 3 0) ∧ (busy.bank 1).command ≠ none ∧ (part.bank 1).command = none ∧
      commandOf (.registerWrite 1 true 0x14 4 0xE) = some (1, wordOf 14 0 0 0) ∧
      commandOf (.registerWrite 1 true 0x14 4 0) = some (1, wordOf 0 0 0 0) ∧ (State.reset.bank 1).command = none ∧
      State.reset.unit.partState ≠ .opened ∧ startCode ≠ openCode ∧ startCode ≠ resetCode ∧
      commandOf (.closePart 1) = some (1, wordOf closeCode 0 0 0) ∧ closeCode ∈ [openCode, closeCode] := by decide +kernel

theorem test_witness_RegisterWriteForms :
    (3 : Nat) ≠ 4 ∧ commandOf (.start 1 3) = some (1, wordOf startCode 0 3 0) ∧
      commandWordOf 0x304 = wordOf startCode 0 3 0 ∧ (0x1C : BitVec 6) ∉ [0x08, 0x0C, 0x10, 0x14, 0x20] ∧
      (0x15 : BitVec 6) ∉ [0x08, 0x0C, 0x10, 0x14, 0x20] ∧ false ≠ checkBit 1 := by decide +kernel

theorem test_witness_OpenAsksForHeader :
    (part.Accepts 0 openCode ∧ part.unit.partState = .opened) ∧
      (State.reset.Accepts 0 openCode ∧ State.reset.unit.partState = .closed) := by decide +kernel

/-- A header record; every window is the same. -/
def header (format : Word) (low high : Byte) (aging base limit : Word) : List Byte :=
  wordBytes format ++ [low, high, 0, 0] ++ wordBytes aging ++ [0, 0, 0, 0]
    ++ (List.replicate 4 (wordBytes base ++ wordBytes limit)).flatten ++ List.replicate 16 0

/-- The verdict of a header's first failing check. -/
def headerVerdict (data : List Byte) : Option (VerdictCode × Half) :=
  match checkHeader (.accept data) with
  | .error v => some v
  | .ok _ => none

theorem test_witness_HeaderAnswered_checks :
    headerVerdict (header 2 1 2 0 0x1000 0x2000) = some (.invalidSetup, 2) ∧
      headerVerdict (header 1 1 2 0 0x1010 0x2000) = some (.invalidSetup, 3) ∧
      headerVerdict (header 1 0 2 0 0x1000 0x2000) = some (.invalidSetup, 7) ∧
      headerVerdict (header 1 2 2 0 0x1000 0x2000) = some (.invalidSetup, 7) ∧
      headerVerdict (header 1 1 33 0 0x1000 0x2000) = some (.invalidSetup, 7) ∧
      headerVerdict (header 1 1 32 65536 0x1000 0x2000) = some (.invalidSetup, 8) ∧
      headerVerdict (header 1 31 32 65535 0xFFFFFFC0 0xFFFFFFE0) = none := by decide +kernel

/-- Windows 0 to 2 are legal, window 3 has its base at its limit. -/
theorem test_witness_HeaderAnswered_window_3 :
    headerVerdict ((header 1 1 2 0 0x1000 0x2000).set 0x2D 0x10) = some (.invalidSetup, 6) := by decide +kernel

/-- An OPEN whose header is asked for. -/
def opening : State := State.reset.setUnit { State.reset.unit with openInProgress := true }

theorem test_witness_HeaderAnswered :
    (reading .header 64 opening).Reading (read .header 64) ∧
      (ReadAnswer.accept (header 1 1 2 0 0x1000 0x2000)).hasLength 64 = true ∧ ReadAnswer.reject.hasLength 64 = true ∧
      (reading .header 64 opening).unit.openInProgress = true ∧
      headerVerdict (header 1 1 2 0 0x1000 0x2000) = none ∧ (opening.alarm 0).op = .none ∧ (opening.alarm 0).take = none := by
  decide +kernel

/-- OPEN's header is answered while list 1 appends an alarm, list 2 has a take in progress and lists 0 and 3 are free. -/
theorem test_witness_HeaderAnswered_lists :
    let s := (opening.setAlarm 1 { AlarmList.reset with op := .appending }).setAlarm 2 { AlarmList.reset with take := some 1 }
    (s.alarm 1).op = .appending ∧ (s.alarm 2).take ≠ none ∧ (s.alarm 2).op ≠ .appending ∧ (s.alarm 0).op = .none ∧
      (s.alarm 0).take = none ∧ [(0 : Agent), 3].Nodup ∧ s.unit.openInProgress = true ∧
      (reading .header 64 s).Reading (read .header 64) := by decide +kernel

/-- An OPEN whose last clearing write, that of list 2, is on the bus. -/
def lastClearing : State :=
  writing (.clearCount 2)
    ((opening.setUnit { opening.unit with openHeader := some (headerOf (header 1 1 2 0 0x1000 0x2000)) }).setAlarm 2
      { AlarmList.reset with op := .clearing })

theorem test_witness_OpenCompletes :
    lastClearing.Writing (write (.clearCount 2)) ∧ lastClearing.afterWrite.unit.openInProgress = true ∧
      lastClearing.afterWrite.unit.openHeader = some (headerOf (header 1 1 2 0 0x1000 0x2000)) ∧
      (lastClearing.afterWrite.alarm 2) = { AlarmList.reset with op := .clearing } ∧
      (∀ j : Agent, j ≠ 2 →
        (lastClearing.afterWrite.alarm j).clearOwed = false ∧ (lastClearing.afterWrite.alarm j).op ≠ .clearing) := by
  decide +kernel

/-- Another list is still to be cleared, or is being cleared. -/
theorem test_witness_OpenCompletes_waits :
    let s := lastClearing.setAlarm 1 { AlarmList.reset with op := .clearing }
    let t := lastClearing.setAlarm 1 { AlarmList.reset with op := .appending, clearOwed := true }
    s.Writing (write (.clearCount 2)) ∧ (s.afterWrite.alarm 1).op = .clearing ∧ (t.afterWrite.alarm 1).clearOwed = true ∧
      (s.afterWrite.alarm 2).waiting = [] ∧ (s.afterWrite.alarm 2).overflowOwed = false ∧
      (after (.clearCountWriteAnswer .accept) s).unit.partState = .closed := by decide +kernel

theorem test_open_completes : (after (.clearCountWriteAnswer .reject) lastClearing).unit.partState = .opened ∧
    ((after (.clearCountWriteAnswer .reject) lastClearing).bank 0).verdict.value = 1 := by decide +kernel

theorem test_witness_CloseReleasesEndedPlans :
    part.Accepts 0 closeCode ∧ ((lineIn .ready part).lineCtl 0).state ≠ .disabled ∧
      ((withPlan .loading part).plan 3).state = .loading ∧ (∀ l : Line, (part.lineCtl l).state = .disabled) ∧
      (∀ i : Slot, ((withPlan .ended part).plan i).state ≠ .loading ∧ ((withPlan .ended part).plan i).state ≠ .ending) := by
  decide +kernel

/-- After RESET_PART an OPEN of agent 2 is refused by the order of R154 (log 35). -/
theorem test_open_of_agent_2_after_reset :
    ((after (.openPart 2) (after (.resetPart 0) part)).bank 2).verdict.code = .notPermitted ∧
      ((after (.start 2 3) (after (.resetPart 0) part)).bank 2).verdict.code = .notOpen := by decide +kernel

/-! ### Witnesses: plans -/

theorem test_witness_StartLoadsSlotRecord :
    part.Accepts 1 startCode ∧ (part.plan 3).state = .idle ∧ ((withPlan .ended part).plan 3).state ≠ .idle ∧
      (withPlan .ended part).Accepts 1 startCode := by decide +kernel

/-- A slot record. -/
def slotRecord (line cls : Byte) (interval first : Word) : List Byte :=
  [line, cls, 0, 0] ++ wordBytes interval ++ wordBytes first ++ List.replicate 52 0

/-- The load read of slot 3 is on the bus; line 0 is READY. -/
def loading : State := reading (.slotRecord 3) 64 (withPlan .loading (lineIn .ready part))

/-- The verdict code of agent 1 after the answer to the load read. -/
def loaded (a : ReadAnswer) : VerdictCode := ((after (.slotLoadAnswer a) loading).bank 1).verdict.code

theorem test_witness_SlotRecordAnswered :
    loading.Reading (read (.slotRecord 3) 64) ∧ (loading.plan 3).state = .loading ∧
      (ReadAnswer.accept (slotRecord 0 7 86400000 0x1000)).hasLength 64 = true ∧
      (loading.port.window 1).base.toNat ≤ 0x1000 ∧ 0x8FE0 + 32 ≤ (loading.port.window 1).limit.toNat := by decide +kernel

theorem test_slot_record_checks :
    loaded .reject = .loadFault ∧ loaded (.accept (slotRecord 4 0 0 0x1000)) = .invalidArgument ∧
      loaded (.accept (slotRecord 0 8 0 0x1000)) = .invalidArgument ∧
      loaded (.accept (slotRecord 0 0 86400001 0x1000)) = .invalidArgument ∧
      loaded (.accept (slotRecord 1 0 0 0x1000)) = .lineNotReady ∧ loaded (.accept (slotRecord 0 0 0 0x1001)) = .window ∧
      loaded (.accept (slotRecord 0 0 0 0x9000)) = .window ∧ loaded (.accept (slotRecord 0 0 0 0xFE0)) = .window ∧
      loaded (.accept (slotRecord 0 7 86400000 0x8FE0)) = .done := by decide +kernel

theorem test_witness_HaltVerdicts :
    part.Accepts 1 haltCode ∧ (part.plan 3).state = .idle ∧ part.Accepts 2 haltCode ∧
      ((withPlan .queued part).plan 3).agent = 1 ∧ ((withPlan .loading part).plan 3).state = .loading ∧
      ((withPlan .setAside part).plan 3).state = .setAside ∧ ((withPlan .waiting part).plan 3).state = .waiting ∧
      ((withPlan .halting part).plan 3).state = .halting ∧ ((withPlan .ending part).plan 3).state = .ending ∧
      ((withPlan .ended part).plan 3).state = .ended := by decide +kernel

theorem test_witness_HaltOfHolder :
    (held .pausing (withPlan .active part)).Accepts 1 haltCode ∧
      ((held .pausing (withPlan .active part)).plan 3).state = .active ∧
      ((held .pausing (withPlan .active part)).walk 0).state ≠ .exchanging ∧
      (part.driver 0).disable ≠ .waitingExchange ∧
      ((exchanging .onLine (withPlan .active (lineIn .sending part))).exch 0).phase = .onLine ∧
      ((exchanging .onLine (withPlan .active (lineIn .waking part))).lineCtl 0).state = .waking ∧
      ((exchanging .onLine (withPlan .active (lineIn .awaiting part))).lineCtl 0).state = .awaiting ∧
      ((exchanging .onLine (withPlan .active (lineIn .receiving part))).lineCtl 0).state = .receiving ∧
      ((exchanging .resolving (withPlan .active part)).walk 0).state = .exchanging ∧
      ((exchanging .backoff (withPlan .active part)).exch 0).phase ≠ .resolving := by decide +kernel

/-- An exchange of slot 3 in a phase after an attempt, whose station's entry is pinned. -/
def given (x : Phase) (begun : Bool) : State :=
  let s := wayIn .valid (exchanging x (withPlan .active (lineIn .ready part)))
  (s.setWay 14 { s.way 14 with pinned := true }).setExch 0
    { s.exch 0 with attempts := 1, frameBegun := begun, entryHeld := true }

/-- Line 0 has a LINE_DISABLE that waits for its exchange. -/
def disableWaits (s : State) : State := s.setDriver 0 { s.driver 0 with disable := .waitingExchange }

/-- The set of the key has a stalled lookup of line 2. -/
def stalled (s : State) : State := s.setCache { s.cache with stalls := upd s.cache.stalls 7 [2] }

theorem test_witness_HaltOfHolder_gives_up :
    (given .backoff true).Accepts 1 haltCode ∧ (disableWaits (given .backoff true)).Accepts 1 haltCode ∧
      ((disableWaits (given .backoff true)).driver 0).disable = .waitingExchange ∧
      ((disableWaits (held .pausing (withPlan .active part))).walk 0).state ≠ .exchanging ∧
      ((given .onLine true).lineCtl 0).state ∉ [.waking, .sending, .aborting, .awaiting, .receiving] ∧
      ((exchanging .onLine (withPlan .active (lineIn .settling part))).lineCtl 0).state = .settling ∧
      (looking.exch 0).attempts = 0 ∧ ((given .backoff true).exch 0).attempts ≠ 0 ∧
      ((given .backoff false).exch 0).frameBegun = false ∧ (given .backoff true).heldWay 0 = some 14 ∧
      part.heldWay 0 = none ∧ (given .backoff true).cache.stalls.get (setOfWay 14) = [] ∧
      (stalled (given .backoff true)).cache.stalls.get (setOfWay 14) = 2 :: [] ∧
      (((given .backoff true).walk 0).copy.note = false) ∧ ((pausing 0x10).walk 0).copy.note = true ∧
      (after (.halt 1 3) (given .backoff true)).way 14 = { (given .backoff true).way 14 with pinned := false, dirty := true } := by
  decide +kernel

theorem test_witness_EndingAPlan :
    ((withPlan .ending part).plan 3).state = .ending ∧ ((withPlan .active part).plan 3).outstanding = 0 ∧
      (((withPlan .active part).setPlan 3 { (withPlan .active part).plan 3 with outstanding := 1 }).plan 3).outstanding ≠ 0 := by
  decide +kernel

/-- Slot 3 is ENDED, and the hold is set at a count of 2. -/
def heldBack : State :=
  (withPlan .ended part).setBacklog { part.backlog with count := 2, hold := true, masks := Vector.replicate 4 8 }

theorem test_witness_ReleaseFreesEndedSlot :
    part.Accepts 1 releaseCode ∧ (part.plan 3).state = .idle ∧ part.Accepts 2 releaseCode ∧
      ((withPlan .loading part).plan 3).state = .loading ∧ ((withPlan .waiting part).plan 3).state.isLive = true ∧
      (heldBack.plan 3).state = .ended ∧ heldBack.backlog.hold = true ∧ heldBack.backlog.count - 1 ≤ heldBack.backlog.lowMark ∧
      ¬((withPlan .ended part).backlog.hold = true) := by decide +kernel

/-- Slot 3 waits on line 0, which is READY: a cleared hold makes its plan the holder; line 1, DISABLED, chooses none. -/
theorem test_witness_ReleaseFreesEndedSlot_selects :
    let s := (withPlan .queued (lineIn .ready part)).setSched 0 { part.sched 0 with
      queue := [{ slot := 3, stamp := 0, aging := .stopped }] }
    (s.sched 0).holder = none ∧ s.inService 0 = true ∧
      (∃ e ∈ (s.sched 0).queue, s.eligible 0 e = true) ∧ (∀ m : Line, m ≠ 0 → s.inService m = false) ∧
      s.wouldChoose 1 = false ∧ select 1 s = s ∧ selectAll part = part ∧
      ((selectAll (s.setPlan 3 { s.plan 3 with firstAddr := 0x1000 })).sched 0).holder = some 3 := by decide +kernel

/-- The interval timer of slot 3 runs. -/
def timed (x : PlanState) : State := part.setPlan 3 { Plan.reset with state := x, interval := 5, intervalTimer := .running 5 }

theorem test_witness_IntervalExpires :
    ((timed .waiting).plan 3).intervalTimer.isRunning = true ∧ ((timed .waiting).plan 3).state = .waiting ∧
      ((timed .setAside).plan 3).state = .setAside := by decide +kernel

theorem test_witness_RunEnds :
    ((held .exchanging (withPlan .active part)).plan ((held .exchanging (withPlan .active part)).walk 0).holder).state = .active ∧
      ((timed .active).plan 3).interval ≠ 0 ∧ ((timed .active).plan 3).intervalExpired = false ∧
      ((after (.intervalExpiry 3) (timed .active)).plan 3).intervalExpired = true ∧
      ((withPlan .active part).plan 3).interval = 0 := by decide +kernel

theorem test_witness_ProgressWriteAnswered :
    (writing (.progress 3) (withPlan .active part)).Writing (write (.progress 3)) := by decide +kernel

/-- The plan of slot 3, with writes outstanding and a progress write owed. -/
def owing (x : PlanState) (outstanding : Nat) (owed : Bool) : State :=
  part.setPlan 3 { Plan.reset with state := x, agent := 1, outstanding := outstanding, progressOwed := owed, endCode := .halted }

theorem test_witness_ProgressWriteAnswered_reports :
    ((owing .active 0 true).plan 3).progressOwed = true ∧ ((owing .active 0 true).plan 3).outstanding = 0 ∧
      ((owing .active 1 true).plan 3).outstanding ≠ 0 ∧ ((owing .active 0 false).plan 3).progressOwed = false ∧
      ((owing .active 0 true).plan 3).state ≠ .ending ∧ ((owing .ending 1 false).plan 3).outstanding ≠ 0 ∧
      (pumpProgress 3 (owing .active 0 true)).port.queue.map (fun e => (e.addr, e.data.take 3)) = [(0x220, [0, 0, 0])] ∧
      pumpProgress 3 (owing .active 1 true) = owing .active 1 true ∧ pumpProgress 3 (owing .ended 0 true) = owing .ended 0 true ∧
      reportAfterAnswer 3 (owing .ending 1 false) = owing .ending 1 false ∧
      (reportAfterAnswer 3 (owing .ending 0 false)).port.queue.map (fun e => e.data.take 3) = [[2, 0, 0]] := by decide +kernel

theorem test_witness_FinalStatusAnswered :
    (writing (.finalStatus 3 true) (withPlan .ending part)).Writing (write (.finalStatus 3 true)) ∧
      ((writing (.finalStatus 3 true) (withPlan .ending part)).afterWrite.plan 3).state = .ending := by decide +kernel

theorem test_final_status :
    (after (.finalStatusWriteAnswer .reject) (writing (.finalStatus 3 true) (withPlan .ending part))).mask 1 = 8 ∧
      (after (.finalStatusWriteAnswer .reject) (writing (.finalStatus 3 true) (withPlan .ending part))).log.kind = .statusLost := by
  decide +kernel

/-! ### Witnesses: scheduling -/

/-- Line 0 has floor 4. -/
def floored : State := part.setSched 0 { part.sched 0 with floor := 4 }

theorem test_witness_FloorSet :
    floored.Accepts 2 floorCode ∧ 8 < (9 : Half).toNat ∧ (floored.sched 0).floor ≤ (8 : Half).toNat ∧
      (4 : Half).toNat ≤ 8 ∧ (3 : Half).toNat < (floored.sched 0).floor := by decide +kernel

/-- The entry of slot 3. -/
def entry : QueueEntry := { slot := 3, stamp := 0, aging := .running 5 }

/-- Slot 3 waits on line 0, which is READY. -/
def queued : State := (withPlan .queued (lineIn .ready part)).setSched 0 { part.sched 0 with queue := [entry], agingPeriod := 5 }

theorem test_witness_SelectionTakesFirstEligible :
    ((held .fetching part).sched 0).holder ≠ none ∧ part.inService 0 = false ∧ (queued.sched 0).holder = none ∧
      queued.inService 0 = true ∧ (queued.sched 0).queue = [] ++ entry :: [] ∧ queued.eligible 0 entry = true ∧
      (∀ e ∈ (part.sched 0).queue, part.eligible 0 e = false) ∧
      (activate 0 3 (queued.setPlan 3 { queued.plan 3 with firstAddr := 0x1000 })).fetchFault 0 = none := by decide +kernel

theorem test_witness_ActivationStartsOrResumes :
    ((withPlan .setAside part).plan 3).state = .setAside ∧ ((withPlan .queued part).plan 3).state ≠ .setAside := by
  decide +kernel

theorem test_witness_AgingRaisesClass :
    (queued.sched (queued.plan 3).line).queue.find? (fun e => decide (e.slot = 3)) = some entry ∧
      entry.aging.isRunning = true ∧ (queued.plan 3).effClass < 7 := by decide +kernel

/-- Slots 3 and 5 wait in class 0, slot 5 behind; slot 6 is set aside and stands before both; the counter's last values. -/
theorem test_witness_AgingRaisesClass_order :
    let s := ((queued.setPlan 5 { Plan.reset with state := .queued }).setPlan 6 { Plan.reset with state := .setAside }).setPlan 4
      { Plan.reset with state := .queued, effClass := 6 }
    let e := fun (i : Slot) (n : Nat) => ({ slot := i, stamp := n, aging := .stopped } : QueueEntry)
    let stamped := fun n : Nat => s.setSched 0 { s.sched 0 with stampCounter := n }
    s.standsBefore (e 3 1) (e 5 2) = true ∧ s.standsBefore (e 5 2) (e 3 1) = false ∧ s.standsBefore (e 6 9) (e 3 1) = true ∧
      s.standsBefore (e 4 9) (e 6 1) = true ∧ (s.plan 4).effClass = 6 ∧
      [e 6 9, e 3 1].Pairwise (fun a b => s.standsBefore a b = true) ∧ (∀ x ∈ [e 6 9, e 3 1], x.stamp ≠ 2) ∧
      s.placeEntry (e 5 2) [e 6 9, e 3 1] = [e 6 9, e 3 1, e 5 2] ∧
      s.placeEntry (e 6 9) [e 3 1] = [e 6 9, e 3 1] ∧
      ((stamped 4294967294).sched 0).stampCounter < 4294967295 ∧ 4294967295 ≤ ((stamped 4294967295).sched 0).stampCounter ∧
      ((joinQueue 5 (stamped 4294967295)).sched 0).stampCounter = 2 := by decide +kernel

/-- Slot 4 holds line 0 at a boundary, and slot 3 waits in class 2. -/
def boundary (hold : Bool) : State :=
  let s := (queued.setPlan 4 { Plan.reset with state := .active }).setPlan 3 { queued.plan 3 with effClass := 2 }
  (s.setSched 0 { s.sched 0 with holder := some 4 }).setWalk 0
    { Walk.reset with state := .atBoundary, holder := 4, boundaryHold := hold }

theorem test_witness_BoundaryDecided :
    (part.walk 0).state ≠ .atBoundary ∧ (part.sched 0).holder = none ∧ ((boundary false).walk 0).state = .atBoundary ∧
      ((boundary false).sched 0).holder = some 4 ∧ ((boundary false).plan 4).state = .active ∧
      (boundary false).firstEligible 0 = some entry ∧
      ((boundary false).plan 4).effClass < ((boundary false).plan 3).effClass ∧
      ((boundary true).walk 0).boundaryHold = true := by decide +kernel

/-! ### Witnesses: line drivers -/

theorem test_witness_LineEnableAsksForSetup :
    part.Accepts 0 lineEnableCode ∧ (part.lineCtl 0).state = .disabled ∧
      (lineIn .cut part).Accepts 0 lineEnableCode ∧ ((lineIn .cut part).lineCtl 0).state ≠ .disabled := by decide +kernel

/-- A setup record that passes its checks, with its ranges at their lower or upper ends. -/
def setupRecord (cutoff : Byte) (settle : Half) : List Byte :=
  [7, 1] ++ halfBytes 2000 ++ [2, 32] ++ halfBytes 1 ++ [7, 15, 14, cutoff] ++ halfBytes 1 ++ [40, 150, 0, 9, 9, 100, 50, 0]
    ++ halfBytes settle ++ wordBytes 0x4000 ++ List.replicate 20 0 ++ wordBytes 11 ++ wordBytes 22 ++ List.replicate 8 0

/-- The verdict of a setup's first failing check. -/
def setupVerdict (data : List Byte) : Option (VerdictCode × Half) :=
  match checkSetup (.accept data) with
  | .error v => some v
  | .ok _ => none

theorem test_witness_SetupInForceIsLegal :
    (setupRecord 0 5000).length = 64 ∧ setupVerdict (setupRecord 0 5000) = none ∧
      setupVerdict (setupRecord 3 0) = none ∧ setupVerdict (setupRecord 4 0) = some (.invalidSetup, 14) ∧
      setupVerdict (setupRecord 0 5001) = some (.invalidSetup, 15) ∧
      setupVerdict ((setupRecord 0 0).set 0 8) = some (.invalidSetup, 2) ∧
      setupVerdict ((setupRecord 0 0).set 4 1) = some (.invalidSetup, 4) ∧
      setupVerdict ((setupRecord 0 0).set 0x0A 15) = some (.invalidSetup, 8) ∧
      setupVerdict ((setupRecord 0 0).set 0x12 10) = some (.invalidSetup, 11) := by decide +kernel

/-- A record that fails each check and passes the checks before it; COOL 8 beside WARM 0 (unlimited); cutoff codes 4 and 255;
IGNORE with a HOT budget of 0; a record of least values. -/
theorem test_witness_SetupInForceIsLegal_checks :
    setupVerdict ((setupRecord 0 0).set 3 8) = some (.invalidSetup, 3) ∧
      setupVerdict ((setupRecord 0 0).set 5 33) = some (.invalidSetup, 5) ∧
      setupVerdict ((setupRecord 0 0).set 6 0) = some (.invalidSetup, 6) ∧
      setupVerdict ((setupRecord 0 0).set 8 8) = some (.invalidSetup, 7) ∧
      setupVerdict ((setupRecord 0 0).set 9 16) = some (.invalidSetup, 8) ∧
      setupVerdict ((setupRecord 0 0).set 0x0C 0) = some (.invalidSetup, 9) ∧
      setupVerdict ((setupRecord 0 0).set 0x0F 40) = some (.invalidSetup, 10) ∧
      setupVerdict (((setupRecord 0 0).set 0x10 8).set 0x11 0) = some (.invalidSetup, 11) ∧
      setupVerdict ((setupRecord 0 0).set 0x13 101) = some (.invalidSetup, 12) ∧
      setupVerdict ((setupRecord 0 0).set 0x14 0) = some (.invalidSetup, 13) ∧
      setupVerdict (setupRecord 255 0) = some (.invalidSetup, 14) ∧
      setupVerdict ((setupRecord 3 0).set 0x12 0) = some (.invalidSetup, 14) ∧
      setupVerdict ((setupRecord 0 0).set 0x18 0x10) = some (.invalidSetup, 16) ∧
      setupVerdict ((setupRecord 2 0).set 0x12 0) = none := by decide +kernel

/-- The setup read of line 0 is on the bus. -/
def settingUp (trip : Bool) : State :=
  reading (.setup 0) 64 (part.setDriver 0 { Driver.reset with pinTripInput := trip })

theorem test_witness_SetupAnswered :
    (settingUp false).Reading (read (.setup 0) 64) ∧ ((settingUp false).lineCtl 0).state = .disabled ∧
      (settingUp false).unit.partState = .opened ∧ (ReadAnswer.accept (setupRecord 0 1)).hasLength 64 = true ∧
      setupVerdict (setupRecord 4 0) ≠ none ∧ setupVerdict (setupRecord 0 1) = none ∧
      ((settingUp false).driver 0).pinOvercurrent = false ∧ ((settingUp false).driver 0).pinTripInput = false ∧
      ((settingUp true).driver 0).pinTripInput = true ∧ ((settingUp true).driver 0).disable ≠ .waitingExchange := by
  decide +kernel

theorem test_line_comes_up :
    ((after (.setupReadAnswer (.accept (setupRecord 0 1))) (settingUp false)).lineCtl 0).state = .powering ∧
      ((after (.setupReadAnswer (.accept (setupRecord 0 0))) (settingUp false)).lineCtl 0).state = .ready ∧
      ((after (.setupReadAnswer (.accept (setupRecord 0 0))) (settingUp true)).lineCtl 0).state = .cut ∧
      ((after (.setupReadAnswer (.accept (setupRecord 0 1))) (settingUp false)).driver 0).powerEpoch = 23 := by decide +kernel

/-- The trip input is active: the line is cut and logged, or under IGNORE logged and brought up; the power epoch is written. -/
theorem test_witness_SetupAnswered_onsets :
    let cut := after (.setupReadAnswer (.accept (setupRecord 0 1))) (settingUp true)
    let up := fun n : Half => after (.setupReadAnswer (.accept (setupRecord 3 n))) (settingUp true)
    setupVerdict (setupRecord 3 1) = none ∧ setupVerdict (setupRecord 3 0) = none ∧
      (checkSetup (.accept (setupRecord 3 1))).toOption.map (fun u => (u.cutoff, u.settle)) = some (.ignore, 1) ∧
      (checkSetup (.accept (setupRecord 0 1))).toOption.map (·.cutoff) = some .float ∧
      [TripPin.tripInput].Nodup ∧ ((settingUp true).driver 0).pinOvercurrent = false ∧
      cut.log = State.reset.log.record .lineTrip 0 2 0 ∧ (cut.lineCtl 0).state = .cut ∧
      cut.port.queue.map (fun e => (e.addr, e.data)) = [(0x74, [23, 0, 0, 0])] ∧
      (up 1).log = State.reset.log.record .tripIgnored 0 2 0 ∧ ((up 1).lineCtl 0).state = .powering ∧
      ((up 0).lineCtl 0).state = .ready ∧ (up 0).port.queue.map (·.addr) = [0x74] := by decide +kernel

theorem test_witness_EpochWritesAnswered :
    (writing (.powerEpoch 0) part).Writing (write (.powerEpoch 0)) ∧ (writing (.epochs 0) part).Writing (write (.epochs 0)) := by
  decide +kernel

theorem test_witness_LineDisableEndsPlans :
    part.Accepts 0 lineDisableCode ∧ (part.lineCtl 0).state = .disabled ∧
      (exchanging .backoff (lineIn .ready part)).Accepts 0 lineDisableCode ∧
      ((exchanging .backoff (lineIn .ready part)).lineCtl 0).state ≠ .disabled ∧
      ((exchanging .backoff (lineIn .ready part)).walk 0).state = .exchanging ∧
      queued.Accepts 0 lineDisableCode ∧ (queued.lineCtl 0).state ≠ .disabled ∧ (queued.walk 0).state ≠ .exchanging ∧
      (queued.plan 3).state.isLive = true ∧ (queued.plan 5).state.isLive = false := by decide +kernel

/-- Line 0 is cut, with a cutoff level and its sources. -/
def cutWith (c : Cutoff) (trip : Bool) (settle : Nat) : State :=
  (lineIn .cut part).setDriver 0 { Driver.reset with
    tripInput := trip, setup := { Setup.reset with cutoff := c, settle := settle, hotBudget := 1 } }

theorem test_witness_LineRestoreByCutoffLevel :
    (cutWith .float true 1).Accepts 0 lineRestoreCode ∧ (part.lineCtl 0).state ≠ .cut ∧
      ((cutWith .float true 1).lineCtl 0).state = .cut ∧ ((cutWith .float true 1).driver 0).tripSum = 2 ∧
      ((cutWith .holdMark false 1).driver 0).tripSum = 0 ∧ ((cutWith .holdMark false 1).driver 0).setup.cutoff = .holdMark ∧
      ((cutWith .float false 1).driver 0).setup.settle ≠ 0 ∧ ((cutWith .float false 0).driver 0).setup.settle = 0 := by
  decide +kernel

theorem test_witness_TripSourcesTaken :
    (part.lineCtl 0).state = .disabled ∧ ((cutWith .float true 1).driver 0).source .tripInput = true ∧
      ((cutWith .float false 1).driver 0).source .tripInput = false ∧ ((cutWith .float false 1).lineCtl 0).state = .cut ∧
      ((lineIn .ready (cutWith .ignore false 1)).driver 0).setup.cutoff = .ignore ∧
      ((lineIn .ready (cutWith .ignore false 1)).lineCtl 0).state ≠ .cut ∧
      ((exchanging .backoff (withPlan .active (lineIn .ready part))).driver 0).setup.cutoff ≠ .ignore ∧
      ((exchanging .backoff (withPlan .active (lineIn .ready part))).driver 0).disable ≠ .waitingExchange ∧
      ((exchanging .backoff (withPlan .active (lineIn .ready part))).sched 0).holder = some 3 ∧
      ((exchanging .backoff (withPlan .halting (lineIn .ready part))).plan 3).state = .halting := by decide +kernel

theorem test_witness_TripSourcesTaken_gives_up :
    ((disableWaits (given .backoff true)).driver 0).disable = .waitingExchange ∧
      ((disableWaits (given .backoff true)).driver 0).source .tripInput = false ∧
      ((given .resolving true).exch 0).phase = .resolving ∧ ((given .resolving true).walk 0).state = .exchanging ∧
      ((given .backoff true).exch 0).phase ≠ .resolving ∧ (part.sched 0).holder = none ∧
      ((given .backoff true).sched 0).holder = some 3 ∧ ((given .backoff true).plan 3).state ≠ .halting ∧
      ((queued.plan 3).line = 0 ∧ (queued.plan 3).state = .queued ∧ (queued.walk 0).holder ≠ 3 ∧ (queued.sched 0).holder ≠ some 3) ∧
      (after (.tripOnset 0 .tripInput) (disableWaits (given .backoff true))).lineCtl 0 =
        { ((given .backoff true).lineCtl 0).cut with state := .disabled } := by decide +kernel

/-- The cut that TRIP_ONSET takes is `cutLine` with its place, for either input, also where a LINE_DISABLE waits. -/
theorem test_witness_TripSourcesTaken_cuts :
    let s := given .backoff true
    let seen := fun (u : State) (p : TripPin) => u.setDriver 0 (((u.driver 0).setPin p true).setSource p true)
    (s.driver 0).source .overcurrent = false ∧ (s.lineCtl 0).state = .ready ∧ (s.driver 0).setup.cutoff ≠ .ignore ∧
      after (.tripOnset 0 .overcurrent) s = cutLine 0 1 (seen s .overcurrent) ∧
      after (.tripOnset 0 .tripInput) (disableWaits s) = cutLine 0 2 (seen (disableWaits s) .tripInput) ∧
      ((after (.tripOnset 0 .tripInput) s).way 14).pinned = false ∧
      (after (.tripOnset 0 .tripInput) s).port.queue.map (·.op) = [.finalStatus 3 false] := by decide +kernel

/-- A READY line whose HOT budget is 0, with thresholds 60 and 80. -/
def warming : State :=
  (lineIn .ready part).setDriver 0 { Driver.reset with setup := { Setup.reset with warm := 60, hot := 80 } }

theorem test_witness_TemperatureMovesZone :
    (part.lineCtl 0).state = .disabled ∧ (warming.lineCtl 0).state ≠ .disabled ∧
      Zone.next .cool 60 80 80 = .hot ∧ Zone.next .cool 60 80 79 = .warm ∧ Zone.next .cool 60 80 59 = .cool ∧
      Zone.next .warm 60 80 55 = .warm ∧ Zone.next .hot 60 80 54 = .cool ∧ Zone.next .hot 60 80 75 = .hot ∧
      Zone.next .hot 60 80 74 = .warm ∧ Zone.next .hot 60 80 55 = .warm ∧ (warming.driver 0).zone ≠ .hot ∧
      (warming.driver 0).setup.hotBudget = 0 ∧ (warming.driver 0).setup.cutoff ≠ .ignore ∧
      (warming.driver 0).disable ≠ .waitingExchange ∧
      ((after (.temperatureSample 0 80) warming).lineCtl 0).state = .cut := by decide +kernel

/-- The same line in an exchange of slot 3, which a LINE_DISABLE waits for; slot 5 waits in its run queue. -/
theorem test_witness_TemperatureMovesZone_disable :
    let s := disableWaits (exchanging .backoff (withPlan .active warming))
    let t := after (.temperatureSample 0 80) s
    (s.lineCtl 0).state ≠ .disabled ∧ (s.lineCtl 0).state ≠ .cut ∧ (s.driver 0).zone.next 60 80 80 = .hot ∧
      (s.driver 0).setup.warm = 60 ∧ (s.driver 0).setup.hot = 80 ∧
      (s.driver 0).zone ≠ .hot ∧ (s.driver 0).setup.hotBudget = 0 ∧ (s.driver 0).setup.cutoff ≠ .ignore ∧
      (s.driver 0).disable = .waitingExchange ∧ (s.walk 0).state = .exchanging ∧ (s.sched 0).holder = some 3 ∧
      (s.walk 0).holder = 3 ∧ (s.plan 3).state = .active ∧
      ((disableWaits (exchanging .onLine (withPlan .halting warming))).plan 3).state = .halting ∧
      (((s.setPlan 5 { Plan.reset with state := .queued }).plan 5).line = 0 ∧ (s.walk 0).holder ≠ 5 ∧ (s.sched 0).holder ≠ some 5) ∧
      (t.lineCtl 0).state = .disabled ∧ (t.plan 3).faultDetail = .lineCut ∧ (t.driver 0).disable = .writingEpochs := by
  decide +kernel

/-- A POWERING line with its timers running. -/
def powering : State :=
  (lineIn .powering part).setDriver 0 { Driver.reset with
    windowTimer := .running 5, settleTimer := .running 5, drainTimer := .running 5 }

theorem test_witness_DriverTimersExpire :
    (powering.driver 0).windowTimer.isRunning = true ∧ (powering.driver 0).drainTimer.isRunning = true ∧
      (powering.driver 0).settleTimer.isRunning = true ∧ (powering.lineCtl 0).state = .powering ∧
      (powering.lineCtl 0).input = .mark ∧ (part.driver 0).windowTimer = .stopped ∧
      (part.driver 0).drainTimer = .stopped ∧ (part.driver 0).settleTimer = .stopped := by decide +kernel

/-- The settle timer expires with the receive input at space: the line settles. -/
theorem test_witness_DriverTimersExpire_space :
    let s := powering.setLine 0 { powering.lineCtl 0 with input := .space }
    (s.lineCtl 0).state = .powering ∧ (s.driver 0).settleTimer.isRunning = true ∧ (s.lineCtl 0).input = .space ∧
      ((after (.settleExpiry 0) s).lineCtl 0).state = .settling ∧
      ((after (.settleExpiry 0) powering).lineCtl 0).state = .ready := by decide +kernel

/-! ### Witnesses: registers -/

theorem test_witness_WorkBaseWritten :
    State.reset.unit.partState = .closed ∧ State.reset.unit.openInProgress = false ∧
      (∀ j : Agent, (State.reset.alarm j).op = .none ∧ (State.reset.alarm j).waiting = [] ∧ (State.reset.alarm j).take = none) ∧
      part.unit.partState ≠ .closed := by decide +kernel

theorem test_witness_FaultRegistersCleared :
    (1 : Word).getLsbD 0 = true ∧ (2 : Word).getLsbD 0 = false ∧ (0x80000000 : Word).getLsbD 31 = true ∧
      (0x7FFFFFFF : Word).getLsbD 31 = false := by decide +kernel

theorem test_witness_FaultLogKeepsFirst :
    part.log.valid = false ∧ (recordFault .lineTrip 2 4 0 part).log.valid = true ∧
      (recordFault .alarmLost 1 1 1 (recordFault .lineTrip 2 4 0 part)).log.nextCount = 1 := by decide +kernel

/-! ### Witnesses: the cache -/

theorem test_witness_LookupByTable :
    looking.exchKey 0 = key ∧ (wayIn .valid looking).findWay .valid key = some 14 ∧
      (wayIn .loading looking).findWay .valid key = none ∧ (wayIn .loading looking).findWay .loading key ≠ none ∧
      (wayIn .writing looking).findWay .writing key ≠ none ∧
      (waysOf (setOf key)).find? (fun n => decide ((looking.way n).condition = .free)) = some 14 := by decide +kernel

/-- Both ways of set 7 hold other stations. -/
def crowded (c : WayCondition) (pinned : Bool) : State :=
  let w : Way := { Way.reset with condition := c, key := { line := 0, station := 39 }, pinned := pinned }
  (looking.setWay 14 w).setWay 15 { w with key := { line := 0, station := 71 } }

theorem test_witness_LookupByTable_full :
    (∀ n ∈ waysOf (setOf key), ((crowded .valid false).way n).condition ≠ .free) ∧
      (crowded .valid false).findWay .writing key = none ∧ (crowded .valid false).victim (setOf key) = some 14 ∧
      (crowded .valid true).victim (setOf key) = none ∧
      (∀ n ∈ waysOf (setOf key), ((crowded .valid true).way n).condition ≠ .writing) ∧
      (∃ n ∈ waysOf (setOf key), ((crowded .writing false).way n).condition = .writing ∧
        ((crowded .writing false).way n).pinned = false ∧ ((crowded .writing false).way n).reserved ≠ some key) := by
  decide +kernel

/-- Of set 7 one way is pinned, or both can be taken with the LRU marker at either; a clean and a dirty way are evicted. -/
theorem test_witness_LookupByTable_victim :
    let lru := (crowded .valid false).setCache
      { (crowded .valid false).cache with lru := upd (crowded .valid false).cache.lru 7 true }
    let one := fun n : Fin 64 => (crowded .valid false).setWay n { (crowded .valid false).way n with pinned := true }
    let dirty := (crowded .valid false).setWay 14 { (crowded .valid false).way 14 with dirty := true }
    lru.victim (setOf key) = some 15 ∧ (one 14).victim (setOf key) = some 15 ∧ (one 15).victim (setOf key) = some 14 ∧
      ((crowded .valid false).way 14).dirty = false ∧ (dirty.way 14).dirty = true ∧ dirty.port.takesAtOnce = true ∧
      (fullQueue dirty).port.takesAtOnce = false ∧ (wayIn .writing looking).findWay .loading key = none ∧
      (lookup 0 dirty).cache.writeBacks = [{ line := 0, station := 39 }] ∧
      ((lookup 0 (fullQueue dirty)).way 14).reserved = some key ∧
      (∃ n ∈ waysOf (setOf key), ((lookup 0 (fullQueue dirty)).way n).condition = .writing ∧
        ((lookup 0 (fullQueue dirty)).way n).reserved = some key) := by decide +kernel

/-- A WRITING way reserved for another key, or for none, whose write-back enters the queue: the lookup of line 0 waited for the key
written back, and line 2 waits in row 6. -/
theorem test_witness_LookupByTable_handed_over :
    let s := lookup 0 (wayIn .writing looking)
    let two := s.setCache { s.cache with handWaits := upd s.cache.handWaits 7 [0, 2] }
    let reserved := two.setWay 14 { two.way 14 with pinned := true, reserved := some { line := 1, station := 71 } }
    let crowd := reserved.setWay 15 { Way.reset with condition := .writing, key := { line := 3, station := 39 } }
    part.findWay .writing key = none ∧ s.findWay .writing key = some 14 ∧ (s.way 14).reserved = none ∧
      s.cache.handWaits.get 7 = [0] ∧ ((wayHandedOver key s).way 14).condition = .loading ∧
      ((wayHandedOver key s).way 14).key = key ∧ (reserved.way 14).reserved = some { line := 1, station := 71 } ∧
      reserved.findWay .writing key = some 14 ∧ crowd.findWay .writing key = some 14 ∧
      ((wayHandedOver key reserved).way 15).key = key ∧ (wayHandedOver key reserved).cache.handWaits.get 7 = [2] ∧
      (wayHandedOver key crowd).cache.handWaits.get 7 = [2, 0] := by decide +kernel

/-- A station record. -/
def stationRecord (address state bucket : Byte) : List Byte :=
  [address, state, 4, 0xFF] ++ List.replicate 8 0 ++ [bucket] ++ List.replicate 19 0

/-- The load of the key's station is on the bus. -/
def stationLoading (awaited : Bool) : State :=
  let s := if awaited then looking.setExch 0 { looking.exch 0 with lookup := .load } else part
  reading (.station key) 32 (wayIn .loading s)

theorem test_witness_StationLoadAnswered :
    (stationLoading true).Reading (read (.station key) 32) ∧ (stationLoading true).findWay .loading key = some 14 ∧
      ((stationLoading true).driver 0).disable ≠ .writingBack ∧ ((stationLoading true).exch 0).lookup = .load ∧
      ((stationLoading true).exch 0).station = 7 ∧ ((stationLoading false).exch 0).lookup ≠ .load ∧
      (ReadAnswer.accept (stationRecord 7 0 15)).hasLength 32 = true ∧ stationStateOf 0 = some .new ∧
      stationStateOf 3 = some .quarantined ∧ stationStateOf 4 = none := by decide +kernel

/-- The entry of station 7, quarantined above or at its release level or in service, is pinned; a request has a payload or none. -/
theorem test_witness_StationLoadAnswered_pins :
    let pins := fun (x : StationState) (bucket : Nat) => (wayIn .valid looking).setWay 14
      { (wayIn .valid looking).way 14 with copy := { StationRecord.reset with state := x, bucket := bucket } }
    (pins .quarantined 5).findWay .valid ((pins .quarantined 5).exchKey 0) = some 14 ∧
      ((pinFor 0 14 (pins .quarantined 5)).exch 0).outcome = some .quarantined ∧
      ((pinFor 0 14 (pins .quarantined 0)).exch 0).phase = .budgetWait ∧
      ((pinFor 0 14 (pins .absent 0)).exch 0).allowance = 1 ∧ (looking.walk 0).copy.requestLength = 0 ∧
      ((looking.setWalk 0 { looking.walk 0 with copy := { Descriptor.reset with requestLength := 5 } }).walk 0).copy.requestLength ≠ 0 := by
  decide +kernel

theorem test_station_load :
    ((after (.stationLoadAnswer (.accept (stationRecord 7 0 15))) (stationLoading true)).exch 0).phase = .budgetWait ∧
      ((after (.stationLoadAnswer (.accept (stationRecord 7 0 16))) (stationLoading true)).exch 0).outcome = some .recordInvalid ∧
      ((after (.stationLoadAnswer (.accept (stationRecord 8 0 0))) (stationLoading false)).way 14).condition = .free ∧
      ((after (.stationLoadAnswer (.accept (stationRecord 7 3 0))) (stationLoading false)).way 14).copy.state = .inService := by
  decide +kernel

/-- A write-back of the key on the bus, for which agent 1 waits. -/
def writingBack (w : FlushWait) : State := writing (.writeBack key) (part.setBank 1 { part.bank 1 with flushWait := w })

/-- An agent whose FLUSH or FLUSH_LINE waits for another key or another line. -/
theorem test_witness_WritebackAnswered_others :
    let other := FlushWait.station { line := 0, station := 8 } true 1
    (∀ (own : Bool) (left : Nat), other ≠ .station key own left) ∧ (∀ left counted : Nat, other ≠ .line key.line left counted) ∧
      (∀ (own : Bool) (left : Nat), FlushWait.line 1 1 0 ≠ .station key own left) ∧
      (∀ left counted : Nat, FlushWait.line 1 1 0 ≠ .line key.line left counted) ∧
      (after (.writebackAnswer .accept) (writingBack other)).bank 1 = (writingBack other).bank 1 ∧
      (after (.writebackAnswer .accept) (writingBack (.line 1 1 0))).bank 1 = (writingBack (.line 1 1 0)).bank 1 := by
  refine ⟨?_, ?_, ?_, ?_, ?_⟩
  · rintro own left ⟨⟩
  · rintro left counted ⟨⟩
  · rintro own left ⟨⟩
  · rintro left counted ⟨⟩
  · decide +kernel

/-- A LINE_DISABLE of line 0 that writes back. -/
def disabling (l : List Key) : State :=
  (part.setDriver 0 { Driver.reset with disable := .writingBack }).setCache { part.cache with writeBacks := l }

theorem test_witness_WritebackAnswered :
    (writingBack .none).Writing (write (.writeBack key)) ∧ ((writingBack .none).afterWrite.driver 0).disable ≠ .writingBack ∧
      ((writingBack .none).afterWrite.bank 1).flushWait = .none ∧
      ((writingBack (.station key true 2)).afterWrite.bank 1).flushWait = .station key true 2 ∧
      ((writingBack (.station key true 1)).afterWrite.bank 1).flushWait = .station key true 1 ∧
      ((writingBack (.line 0 2 0)).afterWrite.bank 1).flushWait = .line 0 2 0 ∧
      ((writingBack (.line 0 1 5)).afterWrite.bank 1).flushWait = .line 0 1 5 ∧
      ((disabling []).driver 0).disable = .writingBack ∧ (disabling []).loadsOf 0 = false ∧ (disabling []).flushable 0 = [] ∧
      (disabling []).lineWriteBacks 0 = 0 ∧ (disabling [key]).lineWriteBacks 0 ≠ 0 := by decide +kernel

/-- A LINE_DISABLE of line 0 that writes back while the load of its station is on the bus; the load's end lets it go on. -/
theorem test_witness_StationLoadAnswered_disable :
    let s := (stationLoading false).setDriver 0 { Driver.reset with disable := .writingBack }
    s.Reading (read (.station key) 32) ∧ s.findWay .loading key = some 14 ∧ (s.driver 0).disable = .writingBack ∧
      s.loadsOf 0 = true ∧ advanceDisable 0 s = s ∧
      ((after (.stationLoadAnswer .reject) s).driver 0).disable = .writingEpochs ∧
      ((after (.stationLoadAnswer (.accept (stationRecord 7 0 0))) s).way 14).condition = .free := by decide +kernel

/-- A LINE_DISABLE in WRITING_BACK: a clean and a dirty way to give up, a load of the line or one that a WRITING way is reserved
for, and nothing left. -/
theorem test_witness_WritebackAnswered_disable :
    let s := disabling []
    let dirty := dirtyWay (s.setWay 0 { Way.reset with condition := .valid, key := { line := 0, station := 32 } })
    let reserved := s.setWay 14 { Way.reset with
      condition := .writing, key := { line := 1, station := 7 }, reserved := some key }
    (s.driver 0).disable = .writingBack ∧ (part.driver 0).disable ≠ .writingBack ∧
      ((wayIn .loading s).way 14).condition = .loading ∧ ((wayIn .loading s).way 14).key.line = 0 ∧
      (reserved.way 14).condition = .writing ∧ (reserved.way 14).reserved = some key ∧ key.line = 0 ∧
      advanceDisable 0 reserved = reserved ∧ dirty.flushable 0 = [0, 14] ∧ dirty.loadsOf 0 = false ∧
      ((advanceDisable 0 dirty).way 0).condition = .free ∧ (advanceDisable 0 dirty).cache.writeBacks = [key] ∧
      ((advanceDisable 0 dirty).driver 0).disable = .writingBack ∧
      ((advanceDisable 0 (wayIn .valid s)).driver 0).disable = .writingEpochs ∧
      (advanceDisable 0 s).port.queue.map (fun e => (e.addr, e.data.length)) = [(0x70, 8)] := by decide +kernel

theorem test_witness_FlushGivesUpStation :
    part.Accepts 2 flushCode ∧ 250 < (251 : Byte).toNat ∧ (250 : Byte).toNat ≤ 250 ∧ (1 : Byte) ≠ 0 ∧
      (wayIn .valid part).findWay .valid key = some 14 ∧ ((wayIn .valid part).way 14).pinned = false ∧
      ((wayIn .valid part).way 14).dirty = false ∧ ((dirtyWay part).way 14).dirty = true ∧
      (dirtyWay part).findWay .valid key = some 14 ∧ (dirtyWay part).port.takesAtOnce = true ∧
      (fullQueue (dirtyWay part)).port.takesAtOnce = false ∧ part.findWay .valid key = none ∧
      (wayIn .loading part).findWay .loading key ≠ none ∧ part.keyWriteBacks key = 0 ∧
      (disabling [key]).keyWriteBacks key ≠ 0 ∧ (wayIn .writing part).findWay .writing key ≠ none := by decide +kernel

theorem test_flush :
    ((after (.flush 2 0 7) (wayIn .valid part)).bank 2).verdict.value = 1 ∧
      (after (.flush 2 0 7) (dirtyWay part)).port.queue.length = 1 ∧
      ((after (.flush 2 0 7) (fullQueue (dirtyWay part))).way 14).condition = .writing := by decide +kernel

theorem test_witness_FlushLineGivesUpWays :
    part.Accepts 2 flushLineCode ∧ part.lineWriteBacks 0 = 0 ∧ (disabling [key]).Accepts 2 flushLineCode ∧
      (disabling [key]).lineWriteBacks 0 ≠ 0 ∧ (dirtyWay part).flushable 0 = [14] := by decide +kernel

theorem test_witness_FlushLineGivesUpWays_serves :
    (14 : Fin 64) ∈ (dirtyWay part).flushable 0 ∧ ((dirtyWay part).way 14).dirty = true ∧
      (dirtyWay part).port.takesAtOnce = true ∧ (fullQueue (dirtyWay part)).port.takesAtOnce = false ∧
      ((wayIn .valid part).way 14).dirty = false ∧ (part.way 14).condition = .free ∧ ((dirtyWay part).way 14).condition ≠ .free ∧
      part.cache.stalls.get 7 = [] ∧ (stalled part).cache.stalls.get 7 = 2 :: [] := by decide +kernel

/-! ### Witnesses: alarms -/

/-- An alarm. -/
def alarm : Alarm := { line := 1, station := 7, status := 2 }

/-- List 1 with a count, waiting alarms and an operation. -/
def listed (count : Nat) (waiting : List Alarm) (op : ListOp) : State :=
  part.setAlarm 1 { AlarmList.reset with count := count, waiting := waiting, op := op }

theorem test_witness_AlarmsAppended :
    ((listed 15 [] .none).alarm 1).count + ((listed 15 [] .none).alarm 1).waiting.length < 16 ∧
      16 ≤ ((listed 15 [alarm] .none).alarm 1).count + ((listed 15 [alarm] .none).alarm 1).waiting.length ∧
      ((listed 1 [] .taking).alarm 1).op ≠ .none ∧ ((listed 1 [alarm] .none).alarm 1).take = none ∧
      ((listed 1 [alarm] .none).alarm 1).clearOwed = false ∧
      (writing (.alarmEntry 1) (listed 1 [alarm] .appending)).Writing (write (.alarmEntry 1)) ∧
      ((writing (.alarmEntry 1) (listed 1 [alarm] .appending)).afterWrite.alarm 1).waiting = alarm :: [] ∧
      (writing (.appendCount 1) (listed 1 [alarm] .appending)).Writing (write (.appendCount 1)) ∧
      (writing (.overflowCount 1) (listed 1 [] .overflowWrite)).Writing (write (.overflowCount 1)) := by decide +kernel

/-- The overflow write is owed, and a take has cleared overflow since: the write carries overflow set (log 11). -/
theorem test_witness_AlarmsAppended_overflow_owed :
    let s := part.setAlarm 1 { AlarmList.reset with count := 4, overflow := false, overflowOwed := true }
    (s.alarm 1).op = .none ∧ (s.alarm 1).take = none ∧ (s.alarm 1).clearOwed = false ∧ (s.alarm 1).waiting = [] ∧
      (s.alarm 1).overflowOwed = true ∧ (pumpList 1 s).port.queue.map (·.data) = [[4, 1, 0, 0]] := by decide +kernel

theorem test_alarm_count_write :
    ((after (.alarmCountWriteAnswer .accept) (writing (.appendCount 1) (listed 1 [alarm] .appending))).alarm 1).count = 2 ∧
      (after (.alarmCountWriteAnswer .reject) (writing (.appendCount 1) (listed 1 [alarm] .appending))).log.place = 7 := by
  decide +kernel

theorem test_witness_AlarmsTakenRuns :
    (listed 3 [] .none).Accepts 1 alarmsTakenCode ∧ ((listed 3 [alarm] .appending).alarm 1).op ≠ .none ∧
      ((listed 3 [] .none).alarm 1).op = .none ∧ ((listed 3 [] .none).alarm 1).count < (4 : Half).toNat ∧
      (2 : Half).toNat < ((listed 3 [] .none).alarm 1).count ∧ (3 : Half).toNat = ((listed 3 [] .none).alarm 1).count ∧
      (reading (.takeEntries 1) 4 part).Reading (read (.takeEntries 1) 4) ∧
      (writing (.takeMove 1) part).Writing (write (.takeMove 1)) ∧
      (writing (.takeCount 1) part).Writing (write (.takeCount 1)) := by decide +kernel

theorem test_alarms_taken :
    (after (.alarmsTaken 1 2) (listed 3 [] .none)).port.reads.map (·.length) = [4] ∧
      ((after (.alarmsTaken 1 0) (listed 3 [] .none)).bank 1).verdict.value = 3 := by decide +kernel

/-- List 1 with a count of 3 and a take of `n` that waits, alarms and an overflow write behind it, or a clearing owed. -/
def waitingTake (n : Nat) (op : ListOp) (owed : Bool) : State :=
  part.setAlarm 1 { AlarmList.reset with
    count := 3, waiting := if owed then [] else [alarm], op := op, take := some n, clearOwed := owed, overflowOwed := !owed }

theorem test_witness_AlarmsTakenRuns_waited :
    ((waitingTake 4 .none false).alarm 1).op = .none ∧ ((waitingTake 4 .none false).alarm 1).take = some 4 ∧
      ((waitingTake 4 .none false).alarm 1).count = 3 ∧
      (pumpList 1 (waitingTake 4 .none false)).port.queue.map (·.op) = [.alarmEntry 1] ∧
      ((pumpList 1 (waitingTake 4 .none false)).bank 1).verdict.code = .invalidArgument ∧
      ((pumpList 1 (waitingTake 0 .none false)).bank 1).verdict.value = 3 ∧
      ((pumpList 1 (waitingTake 0 .none true)).alarm 1).op = .clearing ∧
      (pumpList 1 (waitingTake 2 .none false)).port.reads.map (fun r => (r.addr, r.length)) = [(0x9A8, 4)] ∧
      (pumpList 1 (waitingTake 3 .none false)).port.queue.map (·.op) = [.takeCount 1] ∧
      (after (.alarmCountWriteAnswer .accept) (writing (.overflowCount 1) (waitingTake 2 .overflowWrite false))).port.reads.map
        (·.op) = [.takeEntries 1] := by decide +kernel

/-- A list owed its clearing by OPEN, with no operation and no take; its append's end lets the clearing begin. -/
theorem test_witness_AlarmsAppended_clearing :
    let s := part.setAlarm 1 { AlarmList.reset with count := 3, overflow := true, clearOwed := true }
    let appending := part.setAlarm 1 { AlarmList.reset with waiting := [alarm], op := .appending, clearOwed := true }
    (s.alarm 1).op = .none ∧ (s.alarm 1).take = none ∧ (s.alarm 1).clearOwed = true ∧
      (pumpList 1 s).alarm 1 = { AlarmList.reset with op := .clearing } ∧
      (pumpList 1 s).port.queue.map (fun e => (e.addr, e.data)) = [(0x990, [0, 0, 0, 0])] ∧
      ((after (.alarmCountWriteAnswer .accept) (writing (.appendCount 1) appending)).alarm 1).op = .clearing := by
  decide +kernel

/-! ### Witnesses: the walk -/

/-- A descriptor. -/
def descriptor (kind flags station : Byte) (duration : Half) : List Byte :=
  [kind, flags, station, 3, 0, 0] ++ halfBytes duration ++ wordBytes 0x1000 ++ wordBytes 0x1000 ++ wordBytes 0x1040
    ++ List.replicate 12 0

/-- The descriptor read of line 0 is on the bus; `group` tells whether a group is open. -/
def fetching (group : Bool) : State :=
  let s := held .fetching (withPlan .active (lineIn .ready part))
  let m : Member := { addr := 0x1000, replyAddr := 0, capacity := 0, chain := true, stored := 0 }
  reading (.descriptor 0) 32 (s.setWalk 0 { s.walk 0 with nextAddr := 0x1020, group := if group then [m] else [] })

theorem test_witness_EngineReadsAnswered :
    (fetching false).Reading (read (.descriptor 0) 32) ∧ ((fetching false).walk 0).state = .fetching ∧
      (descriptor 1 0 7 0).length = 32 ∧
      (fetching false).descriptorFault 0 (descriptorOf (descriptor 0 0 7 0)) = some .descriptorInvalid ∧
      (fetching false).descriptorFault 0 (descriptorOf (descriptor 3 0 0 0)) = none ∧
      (fetching false).descriptorFault 0 (descriptorOf (descriptor 4 0 0 60000)) = none ∧
      (fetching false).descriptorFault 0 (descriptorOf (descriptor 4 0 0 60001)) ≠ none ∧
      (fetching false).descriptorFault 0 (descriptorOf (descriptor 1 0 250 0)) = none ∧
      (fetching false).descriptorFault 0 (descriptorOf (descriptor 1 3 250 0)) = none ∧
      (fetching true).descriptorFault 0 (descriptorOf (descriptor 2 0 0 0)) = none ∧
      (fetching true).descriptorFault 0 (descriptorOf (descriptor 2 3 0 0)) = none ∧
      (descriptorOf (descriptor 2 3 0 0)).kind = some .continueReply ∧ (descriptorOf (descriptor 2 3 0 0)).join = true ∧
      (reading (.payload 0) 5 looking).Reading (read (.payload 0) 5) ∧
      ((reading (.payload 0) 5 looking).exch 0).phase = .preparing := by decide +kernel

theorem test_descriptor_read :
    ((after (.descriptorReadAnswer (.accept (descriptor 4 0 0 60000))) (fetching false)).walk 0).state = .pausing ∧
      ((after (.descriptorReadAnswer (.accept (descriptor 3 0 0 0))) (fetching false)).walk 0).nextAddr = 0x1040 ∧
      ((after (.descriptorReadAnswer (.accept (descriptor 1 0 7 0))) (fetching false)).exch 0).lookup = .load := by
  decide +kernel

/-- The kinds at their codes' ends. -/
theorem test_witness_EngineReadsAnswered_kinds :
    (descriptorOf (descriptor 1 0x7F 7 0)).kind = some .exchange ∧ (descriptorOf (descriptor 2 0 7 0)).kind = some .continueReply ∧
      (descriptorOf (descriptor 3 0 7 0)).kind = some .jump ∧ (descriptorOf (descriptor 4 0 7 0)).kind = some .pause ∧
      (descriptorOf (descriptor 0 0 7 0)).kind = none ∧ (descriptorOf (descriptor 5 0 7 0)).kind = none ∧
      (descriptorOf (descriptor 255 0 7 0)).kind = none ∧ (descriptorOf (descriptor 1 0x7F 7 0)).hold = true := by decide +kernel

/-- Descriptors that break one rule each, ranges at the window's ends, and the checks of a fetch. -/
theorem test_witness_EngineReadsAnswered_faults :
    let x := descriptorOf (descriptor 1 0 7 0)
    let c := descriptorOf (descriptor 2 0 7 0)
    let fault := (fetching false).descriptorFault 0
    let at' := fun (a : Word) (n : Nat) => (fetching false).setWalk 0 { (fetching false).walk 0 with nextAddr := a, steps := n }
    (fetching true).descriptorFault 0 x = some .descriptorInvalid ∧ fault c = some .descriptorInvalid ∧
      ((fetching false).setWalk 0 { (fetching false).walk 0 with afterJump := true }).descriptorFault 0
        (descriptorOf (descriptor 3 0 0 0)) = some .descriptorInvalid ∧
      fault (descriptorOf (descriptor 1 2 7 0)) = some .descriptorInvalid ∧
      fault (descriptorOf (descriptor 1 0 251 0)) = some .descriptorInvalid ∧
      fault (descriptorOf (descriptor 1 3 0 0)) = some .descriptorInvalid ∧
      fault { x with requestLength := 241 } = some .descriptorInvalid ∧
      fault { x with capacity := 241 } = some .descriptorInvalid ∧
      fault { x with requestLength := 2, requestAddr := 0x8FFF } = some .window ∧
      fault { x with requestLength := 2, requestAddr := 0x8FFE, capacity := 240, replyAddr := 0x1000 } = none ∧
      fault { x with capacity := 1, replyAddr := 0xFFF } = some .window ∧
      fault { x with station := 0, capacity := 1, replyAddr := 0xFFF } = none ∧
      (fetching true).descriptorFault 0 { c with capacity := 1, replyAddr := 0x9000 } = some .window ∧
      (at' 0x1000 255).fetchFault 0 = some .stepLimit ∧ (at' 0x1010 254).fetchFault 0 = some .window ∧
      (at' 0x9000 254).fetchFault 0 = some .window ∧ (at' 0x8FE0 254).fetchFault 0 = none ∧
      ((fetching true).walk 0).group ≠ [] ∧ ((fetching true).walk 0).copy.station = 0 := by decide +kernel

theorem test_witness_EngineTimersExpire :
    ((pausing 1).walk 0).state = .pausing ∧ ((pausing 1).walk 0).pause.isRunning = true ∧
      ((pausing 1).walk 0).copy.chain = true ∧ ((pausing 0x10).walk 0).copy.chain = false ∧
      (((exchanging .backoff part).setExch 0 { Exchange.reset with phase := .backoff, backoff := .running 4 }).exch 0).phase =
        .backoff ∧ (Timer.running 4).isRunning = true := by decide +kernel

/-- A reply data write on the bus, in a phase and with a tally. -/
def replying (x : Phase) (tally : Nat) : State :=
  let s := exchanging x (withPlan .active (lineIn .receiving part))
  let m : Member := { addr := 0x1000, replyAddr := 0x2000, capacity := 8, chain := false, stored := 0 }
  writing (.replyData 0 3 true)
    ((s.setWalk 0 { s.walk 0 with tally := tally, group := [m] }).setExch 0 { s.exch 0 with outcome := some .short })

theorem test_witness_ExchangeWritesAnswered :
    (replying .onLine 1).Writing (write (.replyData 0 3 true)) ∧
      (writing (.result 0 3 false) part).Writing (write (.result 0 3 false)) ∧
      ((replying .resolving 2).afterWrite.exch 0).phase = .resolving ∧ 1 < ((replying .resolving 2).afterWrite.walk 0).tally ∧
      ((replying .resolving 1).afterWrite.walk 0).tally ≤ 1 ∧ ((replying .onLine 1).afterWrite.exch 0).phase = .onLine ∧
      ((replying .onLine 1).afterWrite.exch 0).abandon = false ∧ ((replying .backoff 1).afterWrite.exch 0).phase ≠ .onLine ∧
      ((replying .resolving 0).exch 0).outcome = some .short ∧
      ((replying .resolving 0).walk 0).group.getLast?.isSome = true ∧ ((replying .resolving 0).walk 0).writeReject = false ∧
      ((replying .resolving 0).walk 0).copy.tolerate = false ∧
      ((replying .resolving 0).plan ((replying .resolving 0).walk 0).holder).state ≠ .halting := by decide +kernel

/-- CHAIN on the last member, a run end, and an exchange's end with and without a LINE_DISABLE that waits. -/
theorem test_witness_ExchangeWritesAnswered_goes_on :
    let s := held .exchanging (withPlan .active (lineIn .ready part))
    ((goOn 0 0x1000 true true s).walk 0).state = .atBoundary ∧ ((goOn 0 0x1000 true true s).walk 0).boundaryHold = true ∧
      ((goOn 0 0x1000 true true s).plan 3).currentAddr = 0x1020 ∧ ((goOn 0 0x1000 false true s).plan 3).currentAddr = 0x1000 ∧
      ((goOn 0 0x1000 false true s).plan 3).state = .ending ∧ (s.driver 0).disable ≠ .waitingExchange ∧
      ((disableWaits s).driver 0).disable = .waitingExchange ∧
      ((afterExchange 0 (disableWaits s)).lineCtl 0).state = .disabled := by decide +kernel

/-- An older progress write is owed when one answer brings the tally and the outstanding count to 0: the exchange, and with it
the plan, ends first, and one status write leaves, the final one, which carries the note (log 31). -/
theorem test_older_progress_write_is_folded :
    let s := replying .resolving 1
    let t := after (.replyDataWriteAnswer .accept) (s.setPlan 3 { s.plan 3 with outstanding := 1, progressOwed := true })
    t.port.queue.map (·.op) = [.finalStatus 3 true] ∧ (t.plan 3).state = .ending ∧ (t.plan 3).endCode = .faulted := by
  decide +kernel

/-! ### Witnesses: attempts -/

/-- Line 0 READY with an exchange that waits for budget. -/
def granted (zone : Zone) (count wakeLead : Nat) : State :=
  let s := exchanging .budgetWait (lineIn .ready part)
  (s.setDriver 0 { Driver.reset with
    zone := zone, windowCount := count, setup := { Setup.reset with warmBudget := 4, hotBudget := 2 } }).setExch 0
      { s.exch 0 with wakeLead := wakeLead }

theorem test_witness_AttemptBegins :
    (granted .cool 255 0).canBegin 0 = true ∧ (granted .warm 3 1).canBegin 0 = true ∧ (granted .warm 4 1).canBegin 0 = false ∧
      (granted .hot 1 0).canBegin 0 = true ∧ (granted .hot 2 0).canBegin 0 = false ∧ part.canBegin 0 = false := by
  decide +kernel

/-- An attempt of line 0 that is sent. -/
def sending (x : LineState) (tx : TxPosition) (abandon : Bool) (station : Byte) : State :=
  let s := exchanging .onLine part
  (s.setLine 0 { LineController.reset with state := x, tx := tx, abort := .running 2 }).setExch 0
    { s.exch 0 with abandon := abandon, wakeLead := 3, station := station }

theorem test_witness_SendingGoesOn :
    ((sending .waking (.wake 2) true 7).exch 0).abandon = true ∧ ((sending .sending (.frame 6) true 7).exch 0).abandon = true ∧
      ((sending .waking (.wake 2) false 7).lineCtl 0).state = .waking ∧ 2 < ((sending .waking (.wake 2) false 7).exch 0).wakeLead ∧
      ((sending .sending (.frame 6) false 7).lineCtl 0).tx = .frame 6 ∧
      6 < 7 + ((sending .sending (.frame 6) false 7).exch 0).txBuffer.length ∧
      ((sending .sending (.frame 7) false 7).exch 0).station ≠ 0 ∧ ((sending .sending (.frame 7) false 0).exch 0).station = 0 ∧
      ((sending .aborting .none true 7).lineCtl 0).abort.isRunning = true := by decide +kernel

theorem test_witness_SendingGoesOn_levels :
    (part.lineCtl 0).tx = .none ∧ part.sentLevels 0 = [] ∧
      (sending .waking (.wake 1) false 7).sentLevels 0 = characterLevels false 0x55 ∧
      (sending .sending (.frame (0 + 1)) false 7).sentCharacter 0 = some 0xD2 ∧
      (sending .sending (.frame (6 + 1)) false 7).sentCharacter 0 = some 7 := by decide +kernel

/-- An attempt of line 0 that waits for its reply, or receives it; its station's entry is held with a bucket. -/
def receiving (x : LineState) (attempts bucket : Nat) : State :=
  let s := exchanging .onLine (withPlan .active part)
  let s := s.setLine 0 { LineController.reset with
    state := x, replyStart := .running 5, charGap := .running 5, rx := some 1 }
  let s := s.setDriver 0 { Driver.reset with setup := { Setup.reset with quarantineLimit := 3 } }
  let s := s.setWay 14 { Way.reset with
    condition := .valid, key := key, pinned := true, copy := { StationRecord.reset with bucket := bucket } }
  s.setExch 0 { s.exch 0 with attempts := attempts, allowance := 2, entryHeld := true }

theorem test_witness_AttemptEnds :
    ((receiving .awaiting 1 0).lineCtl 0).replyStart.isRunning = true ∧
      ((receiving .receiving 1 0).lineCtl 0).charGap.isRunning = true ∧
      (attemptEnds 0 .noReply (receiving .settling 1 2)).exch 0 =
        { (receiving .settling 1 2).exch 0 with
          finalResult := some .noReply, phase := .resolving, outcome := some .quarantined } ∧
      ((attemptEnds 0 .noReply (receiving .settling 1 1)).exch 0).phase = .budgetWait ∧
      ((attemptEnds 0 .busy (receiving .settling 1 1)).exch 0).phase = .backoff ∧
      ((attemptEnds 0 .noReply (receiving .settling 2 1)).exch 0).outcome = some .noReply ∧
      ((attemptEnds 0 .refused (receiving .settling 1 1)).exch 0).outcome = some .refused := by decide +kernel

/-- An exchange that resolves with a valid reply of a status, or with none; the record's counts, and its group. -/
def resolves (reply : Option ValidReply) (r : StationRecord) : State :=
  let s := receiving .settling 1 0
  let m : Member := { addr := 0x1000, replyAddr := 0x2000, capacity := 8, chain := true, stored := 0 }
  ((s.setWay 14 { s.way 14 with copy := r }).setExch 0 { s.exch 0 with
    anyValid := reply.isSome, lastValid := reply, finalReply := reply, everySilent := reply.isNone }).setWalk 0
      { s.walk 0 with group := [m, { m with addr := 0x1020, stored := 3 }], copy := { Descriptor.reset with flags := 0x20 } }

theorem test_witness_AttemptEnds_resolving :
    let r := StationRecord.reset
    let v : ValidReply := { status := 2, length := 4, refused := false }
    let s := resolves (some v) { r with exchanges := 0xFFFF }
    (s.exch 0).entryHeld = true ∧ s.heldWay 0 = some 14 ∧ part.heldWay 0 = none ∧ (part.exch 0).entryHeld = false ∧
      (s.walk 0).copy.claim = true ∧ ((stationUpdate 0 .ok s).way 14).copy.exchanges = 0xFFFF ∧
      ((stationUpdate 0 .ok s).way 14).copy.owner = some 1 ∧ ((stationUpdate 0 .ok s).way 14).copy.state = .inService ∧
      ((stationUpdate 0 .stale s).way 14).copy.toggleKnown = false ∧
      ((stationUpdate 0 .noReply (resolves none r)).way 14).copy.state = .absent ∧
      ((stationUpdate 0 .noReply (resolves none { r with state := .quarantined })).way 14).copy.state = .quarantined ∧
      v.status.getLsbD 1 = true ∧ (s.way 14).copy.alarmPending = false ∧ ((resolves none r).exch 0).anyValid = false ∧
      ((resolves (some v) { r with alarmPending := true }).way 14).copy.alarmPending = true ∧ (0xFD : Byte).getLsbD 1 = false ∧
      ((alarmHandOff 0 s).alarm 0).waiting.length = 1 ∧
      (queueResults 0 .short s).port.queue.map (fun e => (e.addr, e.data.take 3)) =
        [(0x1038, [3, 1, 3]), (0x1018, [3, 1, 0])] := by decide +kernel

theorem test_witness_LineInputEvents :
    ((sending .awaiting .none false 7).lineCtl 0).state = .awaiting ∧ LineState.sending ∉ [.settling, .ready] ∧
      ((part.setLine 0 { LineController.reset with state := .settling, guard := .running 3 }).lineCtl 0).guard.isRunning = true ∧
      GuardTimer.stopped ≠ .held 3 ∧
      (after (.inputReturnsToMark 0) (part.setLine 0 { LineController.reset with guard := .held 3 })).lineCtl 0 =
        { LineController.reset with guard := .running 3 } := by decide +kernel

/-- A line that receives, with a FIFO, a position and an expected length. -/
def receivingAt (fifo : List Byte) (p : Nat) (n : Option Nat) : State :=
  (exchanging .onLine part).setLine 0 { LineController.reset with state := .receiving, rx := some p, expected := n, fifo := fifo }

theorem test_witness_ReplyCharacterReceived :
    ((receivingAt [] 1 none).lineCtl 0).rx = some 1 ∧ 32 ≤ ((receivingAt (List.replicate 32 0) 9 (some 40)).lineCtl 0).fifo.length ∧
      ((receivingAt (List.replicate 31 0) 9 (some 40)).lineCtl 0).fifo.length < 32 ∧
      (LineController.accepts LineController.reset 7 1 0xB5) = false ∧ LineController.accepts LineController.reset 7 2 7 = true ∧
      LineController.accepts LineController.reset 7 5 240 = true ∧ LineController.accepts LineController.reset 7 5 241 = false ∧
      ((receivingAt [] 8 (some 8)).lineCtl 0).expected = some 8 ∧ evenParity 3 false = true ∧ evenParity 1 false = false ∧
      judgeReply true 0x81 0 = .refused ∧ judgeReply true 0x80 0 = .stale ∧ judgeReply true 1 3 = .busy ∧
      judgeReply true 1 2 = .valid := by decide +kernel

/-- The first payload byte of a reply stands at the head of the FIFO; the posting queue holds `q`. -/
def payload (q : List WriteEntry) : State :=
  let s := receivingAt [0x5A] 7 (some 9)
  let m : Member := { addr := 0x1000, replyAddr := 0x2000, capacity := 8, chain := false, stored := 0 }
  ((s.setWalk 0 { s.walk 0 with group := [m] }).setExch 0
    { s.exch 0 with taken := 5, replyLength := 2, storing := true }).setPort { s.port with queue := q }

/-- The entry of the bytes before. -/
def tail : WriteEntry := { addr := 0x1FFF, data := [1], agent := 1, writer := .engine 0, op := .replyData 0 3 true }

theorem test_witness_PayloadByteTaken :
    ((payload []).exch 0).phase = .onLine ∧ ((payload []).exch 0).abandon = false ∧ ((payload []).lineCtl 0).fifo = [0x5A] ∧
      ((payload []).lineCtl 0).frameReceived = false ∧ (payload []).cursorAddr 0 = some 0x2000 ∧
      (payload []).port.roomForPayload 0 = true ∧ (payload []).port.canMerge 0 0x2000 = false ∧
      (payload [tail]).port.canMerge 0 0x2000 = false ∧
      (payload [{ tail with addr := 0x2000 }]).port.canMerge 0 0x2001 = true ∧
      (after (.payloadByteTaken 0) (payload [])).port.queue.map (·.data) = [[0x5A]] := by decide +kernel

/-- A payload byte of line 0 waits first, a write of the cache behind it; the queue holds `n` entries. -/
def waits (n : Nat) : State :=
  (payload (List.replicate n (write (.clearCount 0)))).setPort { (payload []).port with
    queue := List.replicate n (write (.clearCount 0)),
    waiting := [{ writer := .engine 0, items := [.payload] }, { writer := .cache, items := [.write (write (.writeBack key))] }] }

theorem test_witness_PayloadByteTaken_waits :
    (waits 15).port.roomForPayload 0 = true ∧ (waits 16).port.roomForPayload 0 = false ∧ (waits 15).port.roomForPayload 1 = false ∧
      (waits 16).port.canMerge 0 0x2000 = false ∧ (waits 15).port.joinWaiting = none ∧
      ((waits 15).port.dropPayloadWait 0).joinWaiting.isSome = true ∧ (payload []).port.joinWaiting = none ∧
      (waits 15).port.waiting ≠ [] ∧ 16 ≤ (waits 16).port.queue.length ∧
      (after (.payloadByteTaken 0) (waits 16)) = waits 16 ∧
      ((after (.payloadByteTaken 0) (waits 14)).port.queue.map (·.writer)).drop 14 = [.engine 0, .cache] ∧
      ((waits 15).port.handOver (write (.takeCount 1))).queue.length = 15 := by decide +kernel

/-- Line 0 receives, `fifo` waits, `taken` characters have been taken of a reply of two payload bytes, none of them stored. -/
def takes (fifo : List Byte) (taken : Nat) (whole : Bool) : State :=
  let s := exchanging .onLine part
  (s.setLine 0 { LineController.reset with state := .settling, fifo := fifo, frameReceived := whole }).setExch 0
    { s.exch 0 with taken := taken, replyLength := 2, attempts := 1, allowance := 1 }

/-- A header character, a payload byte that is dropped, one that is stored and one that waits, and the end of a frame. -/
theorem test_witness_ReplyCharacterReceived_takes :
    ((takes [0x81] 2 false).lineCtl 0).fifo = 0x81 :: [] ∧ ¬(5 ≤ ((takes [0x81] 2 false).exch 0).taken) ∧
      ((drainFifo 1 0 (takes [0x81] 2 false)).exch 0).control = 0x81 ∧
      5 ≤ ((takes [9, 8] 5 false).exch 0).taken ∧ ((takes [9, 8] 6 false).exch 0).taken < 5 + 2 ∧
      ((takes [9] 5 false).exch 0).storing = false ∧ ((payload []).exch 0).storing = true ∧
      (payload []).cursorAddr 0 = some 0x2000 ∧
      ((payload []).port.canMerge 0 0x2000 = true ∨ (payload []).port.roomForPayload 0 = true) ∧
      ¬((waits 16).port.canMerge 0 0x2000 = true ∨ (waits 16).port.roomForPayload 0 = true) ∧
      ((drainFifo 33 0 (takes [9, 8, 1, 2] 5 true)).exch 0).taken = 9 ∧
      ((drainFifo 33 0 (takes [9, 8, 1, 2] 5 true)).lineCtl 0).fifo = [] ∧
      ((pumpWaiting (drainFifo 33 0 (takes [2] 8 true))).lineCtl 0).frameReceived = true ∧
      ((takes [2] 8 false).lineCtl 0).frameReceived = false ∧ ((takes [] 9 true).lineCtl 0).fifo = [] ∧
      judgeReply ((takes [] 9 true).exch 0).sentToggle ((takes [] 9 true).exch 0).control
        ((takes [] 9 true).exch 0).status = .valid ∧
      ((takeCharacters 0 (takes [2] 8 true)).exch 0).outcome = some .long ∧
      ((takeCharacters 0 (takes [2] 8 true)).lineCtl 0).frameReceived = false := by decide +kernel

/-- A STALE reply is not recorded. -/
theorem test_witness_ReplyCharacterReceived_stale :
    let s := (takes [2] 8 true).setExch 0 { (takes [2] 8 true).exch 0 with sentToggle := true }
    judgeReply (s.exch 0).sentToggle (s.exch 0).control (s.exch 0).status = .stale ∧
      ((takeCharacters 0 s).exch 0).anyValid = false ∧ ((takeCharacters 0 s).exch 0).finalResult = some .stale := by
  decide +kernel

/-- The header characters, a cursor that passes an empty member, and the end of a buffer. -/
theorem test_witness_PayloadByteTaken_cursor :
    let m : Member := { addr := 0x1000, replyAddr := 0x2000, capacity := 2, chain := true, stored := 0 }
    let g := [{ m with capacity := 0 }, m, { m with capacity := 0 }]
    let e : Exchange := { Exchange.reset with cursorMember := 1, cursorOffset := 0 }
    nextBuffer g 0 = 1 ∧ nextBuffer g 2 = 3 ∧ nextBuffer [] 0 = 0 ∧ (e.advanceCursor g).cursorOffset = 1 ∧
      ({ e with cursorOffset := 1 }.advanceCursor g).cursorMember = 3 ∧ judgeReply e.sentToggle e.control e.status = .valid ∧
      judgeReply true e.control e.status = .stale := by decide +kernel

/-! ### Witnesses: the Memory Port -/

/-- A port with a preference, a queue and reads, its bus free. -/
def porting (x : Preference) (q : List WriteEntry) (r : List ReadRequest) : State :=
  part.setPort { part.port with preference := x, queue := q, reads := r }

theorem test_witness_PortIssues :
    (porting .reads [] [read .header 64]).port.chooseRead = some (read .header 64) ∧
      (porting .reads [write (.clearCount 0)] [read .header 64]).port.chooseRead = none ∧
      (porting .writes [write (.clearCount 0)] []).port.queue ≠ [] ∧ part.port.bus = none ∧
      (reading .header 64 part).port.bus ≠ none ∧ (reading .header 64 part).port.answerTimer.isRunning = true ∧
      part.port.answerTimer = .stopped ∧ (writing (.clearCount 0) part).Writing (write (.clearCount 0)) ∧
      (after .resetPin (writing (.clearCount 0) part)).port.bus = some (.orphan (write (.clearCount 0))) ∧
      (after .requestIssue (porting .reads [] [read .header 64])).port.bus = some (.read (read .header 64)) := by decide +kernel

/-- The rotation stands at the Engine of line 3; the cache has a held-back read, a ready one behind it, and the Command Unit a
ready one: the cache's second read is issued, and the rotation moves on to the Driver Monitor of line 0. -/
theorem test_witness_PortIssues_rotation :
    let back := read (.station key) 32
    let r := { read (.station key) 32 with addr := 0x4000 }
    let early := { read .header 64 with requester := .commandUnit, addr := 0x5000 }
    let s := porting .reads [write (.clearCount 0)] [early, back, r]
    let t := s.setPort { s.port with rotation := .engine 3 }
    Machine.rotation = [.commandUnit, .planUnit, .engine 0, .engine 1, .engine 2] ++ t.port.rotation ::
        [.cache, .driver 0, .driver 1, .driver 2, .driver 3, .alarmUnit] ∧
      t.port.rotation :: [.cache, .driver 0, .driver 1, .driver 2, .driver 3, .alarmUnit] ++
          [.commandUnit, .planUnit, .engine 0, .engine 1, .engine 2] =
        [.engine 3] ++ .cache :: [.driver 0, .driver 1, .driver 2, .driver 3, .alarmUnit, .commandUnit, .planUnit, .engine 0,
          .engine 1, .engine 2] ∧
      (∀ x ∈ t.port.reads, x.requester ∈ [.engine 3] → t.port.ready x = false) ∧ t.port.reads = [early, back] ++ r :: [] ∧
      (∀ x ∈ [early, back], x.requester = .cache → t.port.ready x = false) ∧ t.port.ready r = true ∧ t.port.bus = none ∧
      (after .requestIssue t).port.bus = some (.read r) ∧ (after .requestIssue t).port.rotation = .driver 0 ∧
      (porting .writes [write (.clearCount 0)] [r]).port.ready r = true ∧
      (∀ x ∈ (porting .reads [write (.clearCount 0)] [back]).port.reads,
        (porting .reads [write (.clearCount 0)] [back]).port.ready x = false) := by decide +kernel

/-- Ranges that meet across the top of the address space, ranges side by side, and the two marks of the preference. -/
theorem test_witness_PortIssues_marks :
    overlaps 0xFFFFFFFF 2 0 1 = true ∧ overlaps 0x1000 32 0x1020 240 = false ∧ overlaps 0x1000 33 0x1020 240 = true ∧
      ((porting .reads (List.replicate 11 tail) []).port.join tail).preference = .writes ∧
      ((porting .reads (List.replicate 10 tail) []).port.join tail).preference = .reads ∧
      (porting .writes (List.replicate 5 tail) []).port.leaveHead.preference = .reads ∧
      (porting .writes (List.replicate 6 tail) []).port.leaveHead.preference = .writes ∧
      (after .answerTimeout (reading .header 64 opening)) = after (.headerReadAnswer .reject) (reading .header 64 opening) := by
  decide +kernel

/-! ### Witnesses: the laws of every step -/

/-- The laws hold at reset, and a command stands at the front of the queue. -/
theorem test_witness_laws :
    OpenLaw (State.reset.setPending [.openPart 0]) ∧
      (∃ t, step (State.reset.setPending [.openPart 0]) = .next t) ∧
      (∀ k : Agent, State.reset.mask k = 0) ∧ State.reset.backlog.count = 0 ∧ (∀ i : Slot, (State.reset.plan i).state = .idle) ∧
      (∀ l : Line, (State.reset.lineCtl l).state = .disabled) ∧ State.reset.backlog.hold = false := by
  refine ⟨⟨nofun, nofun⟩, ⟨_, rfl⟩, ?_⟩
  decide +kernel

end Sys2Proof.Tests
end

section
/-! What every step keeps: the law of PENDING, the laws of the hold, of OPEN, of plans and lines. Each is shown of every
`Move`; a step is a sequence of moves. -/

namespace Sys2Proof.Machine

/-! ### From moves to steps -/

/-- A predicate that every move keeps is kept by a sequence of moves. -/
theorem Moves.keeps {P : State → Prop} (hm : ∀ {k : Kind} {a b : State}, Move k a b → P a → P b) {K : List Kind}
    {s t : State} (h : Moves K s t) (hs : P s) : P t := by
  induction h with
  | refl => exact hs
  | snoc _ _ m ih => exact hm m ih

/-- A predicate that every move keeps, and that does not read the command queue, is kept by every step. -/
theorem step_keeps {P : State → Prop} (hm : ∀ {k : Kind} {a b : State}, Move k a b → P a → P b)
    (hq : ∀ (s : State) (q : List Instr), P s → P (s.setPending q)) {s t : State} (h : step s = .next t) (hs : P s) :
    P t := by
  obtain ⟨q, m⟩ := step_moves s t h
  exact m.keeps hm (hq s q hs)

/-! ### The ENDED plans -/

theorem mem_endedSlots {s : State} {i : Slot} : i ∈ s.endedSlots ↔ (s.plan i).state = .ended := by
  simp [State.endedSlots, allSlots]

theorem endedSlots_eq_nil {s : State} (h : ∀ i : Slot, (s.plan i).state ≠ .ended) : s.endedSlots = [] :=
  List.eq_nil_iff_forall_not_mem.mpr fun i hi => h i (mem_endedSlots.mp hi)

theorem endedSlots_congr {s t : State} (h : ∀ i : Slot, (t.plan i).state = .ended ↔ (s.plan i).state = .ended) :
    t.endedSlots = s.endedSlots := by
  unfold State.endedSlots
  simp only [h]

/-- The ENDED plans in the other slots. -/
def State.endedBut (s : State) (i : Slot) : List Slot :=
  (allSlots.erase i).filter fun j => decide ((s.plan j).state = .ended)

theorem length_endedSlots (s : State) (i : Slot) :
    s.endedSlots.length = (if (s.plan i).state = .ended then 1 else 0) + (s.endedBut i).length := by
  have hperm : allSlots.Perm (i :: allSlots.erase i) := List.perm_cons_erase (List.mem_finRange i)
  unfold State.endedSlots State.endedBut
  rw [(hperm.filter _).length_eq, List.filter_cons]
  by_cases h : (s.plan i).state = .ended <;> simp [h, Nat.add_comm]

theorem endedBut_setPlan (s : State) (i : Slot) (q : Plan) : (s.setPlan i q).endedBut i = s.endedBut i := by
  refine List.filter_congr fun j hj => ?_
  have hne : j ≠ i := ((List.nodup_finRange 32).mem_erase_iff.mp hj).1
  rw [State.plan_setPlan_ne _ _ hne]

/-- A plan that enters ENDED is one ENDED plan more. -/
theorem length_endedSlots_enter {s : State} {i : Slot} {q : Plan} (hp : (s.plan i).state ≠ .ended)
    (hq : q.state = .ended) : (s.setPlan i q).endedSlots.length = s.endedSlots.length + 1 := by
  rw [length_endedSlots _ i, length_endedSlots s i, endedBut_setPlan]
  simp [hp, hq, Nat.add_comm]

/-- A plan that leaves ENDED is one ENDED plan less. -/
theorem length_endedSlots_leave {s : State} {i : Slot} {q : Plan} (hp : (s.plan i).state = .ended)
    (hq : q.state ≠ .ended) : (s.setPlan i q).endedSlots.length = s.endedSlots.length - 1 := by
  rw [length_endedSlots _ i, length_endedSlots s i, endedBut_setPlan]
  simp [hp, hq]

/-- R23: CLOSE resets the ENDED plans and leaves the others. -/
theorem plan_resetEnded (s : State) (i : Slot) :
    (s.endedSlots.foldl (fun t j => t.setPlan j Plan.reset) s).plan i =
      if (s.plan i).state = .ended then Plan.reset else s.plan i := by
  rw [foldl_resetPlan]
  refine (get_foldl_resetPlan _ _ i).trans ?_
  simp only [mem_endedSlots]
  rfl

/-- The state of a plan after CLOSE has reset the ENDED plans. -/
theorem state_resetEnded (s : State) (i : Slot) :
    ((s.endedSlots.foldl (fun t j => t.setPlan j Plan.reset) s).plan i).state =
      if (s.plan i).state = .ended then .idle else (s.plan i).state := by
  rw [plan_resetEnded]
  split <;> rfl

/-- CLOSE changes no line when it resets the ENDED plans. -/
theorem lineCtl_resetEnded (s : State) (l : Line) :
    (s.endedSlots.foldl (fun t j => t.setPlan j Plan.reset) s).lineCtl l = s.lineCtl l := by
  rw [foldl_resetPlan]
  rfl

/-! ### Resets -/

theorem plan_resetBlocks (s : State) (i : Slot) : (resetBlocks s).plan i = Plan.reset :=
  Vector.getElem_replicate i.isLt

theorem mask_resetBlocks (s : State) (k : Agent) : (resetBlocks s).mask k = 0 :=
  Vector.getElem_replicate k.isLt

theorem lineCtl_resetBlocks (s : State) (l : Line) : (resetBlocks s).lineCtl l = (s.lineCtl l).afterReset :=
  Vector.getElem_map _ l.isLt

/-! ### The law of PENDING (R20) -/

/-- The masks and the count go by which plans are ENDED, and by their agents. -/
theorem PendingLaw.congr {s t : State} (h : PendingLaw s)
    (he : ∀ i : Slot, (t.plan i).state = .ended ↔ (s.plan i).state = .ended)
    (ha : ∀ i : Slot, (s.plan i).state = .ended → (t.plan i).agent = (s.plan i).agent)
    (hm : t.backlog.masks = s.backlog.masks) (hc : t.backlog.count = s.backlog.count) : PendingLaw t := by
  obtain ⟨hbits, hcount⟩ := h
  refine ⟨fun k i => ?_, by rw [hc, hcount, endedSlots_congr he]⟩
  have hmask : t.mask k = s.mask k := congrArg (·.get k) hm
  rw [hmask, hbits k i, he i]
  exact and_congr_right fun hi => by rw [ha i hi]

/-- A change of one plan context that keeps whether the plan is ENDED, and for whom. -/
theorem PendingLaw.setPlan {s : State} (h : PendingLaw s) {i : Slot} {q : Plan}
    (he : q.state = .ended ↔ (s.plan i).state = .ended) (ha : (s.plan i).state = .ended → q.agent = (s.plan i).agent) :
    PendingLaw (s.setPlan i q) := by
  refine h.congr (fun j => ?_) (fun j hj => ?_) rfl rfl
  · rw [State.plan_setPlan]
    split
    · next hji => rw [hji]; exact he
    · rfl
  · rw [State.plan_setPlan]
    split
    · next hji => rw [hji] at hj ⊢; exact ha hj
    · rfl

/-- No plan is ENDED, no bit is set, and the count is 0. -/
theorem PendingLaw.of_none {s : State} (hp : ∀ i : Slot, (s.plan i).state ≠ .ended) (hm : ∀ k : Agent, s.mask k = 0)
    (hc : s.backlog.count = 0) : PendingLaw s := by
  refine ⟨fun k i => ?_, by rw [hc, endedSlots_eq_nil hp]; rfl⟩
  simp [hm k, hp i]

theorem getLsbD_setBit (m : Word) (i j : Slot) :
    (m ||| BitVec.twoPow 32 i.val).getLsbD j.val = (m.getLsbD j.val || decide (j = i)) := by
  rw [BitVec.getLsbD_or, BitVec.getLsbD_twoPow]
  simp [Fin.ext_iff, eq_comm]

theorem getLsbD_clearBit (m : Word) (i j : Slot) :
    (m &&& ~~~(BitVec.twoPow 32 i.val)).getLsbD j.val = (m.getLsbD j.val && !decide (j = i)) := by
  rw [BitVec.getLsbD_and, BitVec.getLsbD_not, BitVec.getLsbD_twoPow]
  simp [Fin.ext_iff, eq_comm]

/-- R20: a plan that enters ENDED sets its bit in its agent's mask. -/
theorem PendingLaw.enter {s : State} (h : PendingLaw s) {i : Slot} (hi : (s.plan i).state = .ending) (isOpen : Bool) :
    PendingLaw ((s.setPlan i { s.plan i with state := .ended }).setBacklog
      (s.backlog.enter isOpen (s.plan i).agent i)) := by
  obtain ⟨hbits, hcount⟩ := h
  have hne : (s.plan i).state ≠ .ended := by rw [hi]; nofun
  refine ⟨fun k j => ?_, ?_⟩
  · have hold := hbits k j
    rw [State.plan_setBacklog, State.plan_setPlan]
    simp only [State.mask, State.backlog_setBacklog, Backlog.enter, get_upd] at hold ⊢
    by_cases hk : k = (s.plan i).agent
    · rw [if_pos hk, ← hk, getLsbD_setBit, Bool.or_eq_true, hold, decide_eq_true_eq]
      by_cases hj : j = i <;> simp [hj, hk]
    · rw [if_neg hk, hold]
      by_cases hj : j = i <;> simp [hj, hne, Ne.symm hk]
  · exact (congrArg (· + 1) hcount).trans (length_endedSlots_enter hne rfl).symm

/-- R20, R22: a plan whose slot is freed clears its bit. -/
theorem PendingLaw.leave {s : State} (h : PendingLaw s) {i : Slot} (hi : (s.plan i).state = .ended) :
    PendingLaw ((s.setBacklog (s.backlog.leave (s.plan i).agent i)).setPlan i Plan.reset) := by
  obtain ⟨hbits, hcount⟩ := h
  refine ⟨fun k j => ?_, ?_⟩
  · have hold := hbits k j
    rw [State.plan_setPlan, State.plan_setBacklog]
    simp only [State.mask, State.backlog_setPlan, State.backlog_setBacklog, Backlog.leave, get_upd] at hold ⊢
    by_cases hk : k = (s.plan i).agent
    · rw [if_pos hk, ← hk, getLsbD_clearBit, Bool.and_eq_true, hold]
      by_cases hj : j = i <;> simp [hj, Plan.reset]
    · rw [if_neg hk, hold]
      by_cases hj : j = i <;> simp [hj, hi, Plan.reset, Ne.symm hk]
  · exact (congrArg (· - 1) hcount).trans (length_endedSlots_leave (s := s) hi (by decide)).symm

theorem Move.keeps_pendingLaw {k : Kind} {s t : State} (m : Move k s t) (h : PendingLaw s) : PendingLaw t := by
  cases m with
  | plan i q hq => exact h.setPlan hq.ended hq.agent
  | count i q hq => exact h.setPlan (by rw [hq.state]) fun _ => hq.agent
  | ended i hi => exact h.enter hi _
  | freed i hi => exact h.leave hi
  | closed hb =>
    refine .of_none (fun i => ?_) (fun j => Vector.getElem_replicate j.isLt) rfl
    refine fun hi => ?_
    have hstate := (state_resetEnded s i).symm.trans hi
    split at hstate
    · cases hstate
    · next hne => exact hne hstate
  | opened hd hp hh => exact h
  | reset u g hu =>
    refine .of_none (fun i => ?_) (fun j => mask_resetBlocks s j) rfl
    exact fun hi => nomatch (congrArg Plan.state (plan_resetBlocks s i)).symm.trans hi
  | _ => exact h

/-- Settles O57: each of the moves that make up a step keeps the law. -/
theorem pendingLawKept : Obligations.PendingLawKept :=
  fun _ _ hs h => step_keeps (P := PendingLaw) Move.keeps_pendingLaw (fun _ _ hp => hp) h hs

end Sys2Proof.Machine
end

section
/-! What every step keeps, together: the laws of PENDING, of the hold, of OPEN, of plans on lines, and of a CLOSED part. -/

namespace Sys2Proof.Machine

/-- The laws that are kept together: each may lean on the others. -/
structure PartLaws (s : State) : Prop where
  pending : PendingLaw s
  hold : HoldLaw s
  opening : OpenLaw s
  live : LiveLaw s
  closed : ClosedLaw s

/-! ### The hold (R21) -/

theorem HoldLaw.marksLegal {s : State} (h : HoldLaw s) (ho : s.unit.partState = .opened) :
    legalMarks s.backlog.lowMark s.backlog.highMark := (h.1 ho).1

/-- While the part is CLOSED no plan is ENDED. -/
theorem count_of_closed {s : State} (hp : PendingLaw s) (hc : ClosedLaw s) (h : s.unit.partState = .closed) :
    s.backlog.count = 0 := by
  have hnone : s.endedSlots = [] := endedSlots_eq_nil fun i => by rw [(hc h).2 i]; nofun
  rw [hp.2, hnone]
  rfl

/-- R21: the hold after a plan has entered ENDED. -/
theorem HoldLaw.enter {s : State} (h : HoldLaw s) (i : Slot) (q : Plan) (k : Agent) :
    HoldLaw ((s.setPlan i q).setBacklog (s.backlog.enter (decide (s.unit.partState = .opened)) k i)) := by
  refine ⟨fun ho => ?_, fun hc => ?_⟩
  · have ho : s.unit.partState = .opened := ho
    obtain ⟨hmarks, -, hclear⟩ := h.1 ho
    obtain ⟨-, hlt, -⟩ := hmarks
    refine ⟨h.marksLegal ho, fun hhigh => ?_, fun hlow => ?_⟩
    · have hhigh : s.backlog.highMark ≤ s.backlog.count + 1 := hhigh
      simp [Backlog.enter, ho, hhigh]
    · have hlow : s.backlog.count + 1 ≤ s.backlog.lowMark := hlow
      have hbelow : ¬s.backlog.highMark ≤ s.backlog.count + 1 := by omega
      simp [Backlog.enter, hbelow, hclear (Nat.le_of_succ_le hlow)]
  · have hc : s.unit.partState = .closed := hc
    simp [Backlog.enter, hc, h.2 hc]

/-- R21, R22: the hold after an ENDED plan's slot has been freed. -/
theorem HoldLaw.leave {s : State} (h : HoldLaw s) (i : Slot) (q : Plan) (k : Agent) :
    HoldLaw ((s.setBacklog (s.backlog.leave k i)).setPlan i q) := by
  refine ⟨fun ho => ?_, fun hc => ?_⟩
  · have ho : s.unit.partState = .opened := ho
    obtain ⟨⟨-, hlt, -⟩, hset, -⟩ := h.1 ho
    refine ⟨h.marksLegal ho, fun hhigh => ?_, fun hlow => ?_⟩
    · have hhigh : s.backlog.highMark ≤ s.backlog.count - 1 := hhigh
      have habove : ¬s.backlog.count - 1 ≤ s.backlog.lowMark := by omega
      have hheld : s.backlog.hold = true := hset (by omega)
      simpa [Backlog.leave, hheld] using habove
    · have hlow : s.backlog.count - 1 ≤ s.backlog.lowMark := hlow
      simp [Backlog.leave, hlow]
  · have hc : s.unit.partState = .closed := hc
    simp [Backlog.leave, h.2 hc]

/-- The hold is clear, and the part is CLOSED. -/
theorem HoldLaw.of_closed {s : State} (hc : s.unit.partState = .closed) (hh : s.backlog.hold = false) : HoldLaw s :=
  ⟨fun ho => (nomatch hc.symm.trans ho), fun _ => hh⟩

/-- The law reads the part state and the backlog alone. -/
theorem HoldLaw.congr {s t : State} (h : HoldLaw s) (hu : t.unit.partState = s.unit.partState)
    (hb : t.backlog = s.backlog) : HoldLaw t := by
  unfold HoldLaw
  rw [hu, hb]
  exact h

/-- R155: a part that has just been opened has no ENDED plan, and its hold is clear. -/
theorem Move.keeps_holdLaw {k : Kind} {s t : State} (m : Move k s t) (h : PartLaws s) : HoldLaw t := by
  cases m with
  | ended i hi => exact h.hold.enter i _ _
  | freed i hi => exact h.hold.leave i _ _
  | closed hb => exact .of_closed rfl rfl
  | opened hd hp hh =>
    have hclosed := h.opening.1 hp
    have hmarks := h.opening.2 hd hh
    have hcount := count_of_closed h.pending h.closed hclosed
    refine ⟨fun _ => ⟨hmarks, fun hhigh => ?_, fun _ => rfl⟩, nofun⟩
    have hhigh : hd.highMark ≤ s.backlog.count := hhigh
    obtain ⟨_, hlt, _⟩ := hmarks
    omega
  | unit x hx => exact h.hold.congr hx.part rfl
  | reset u g hu => exact .of_closed hu.part rfl
  | _ => exact h.hold

/-! ### OPEN (R155) -/

theorem Move.keeps_openLaw {k : Kind} {s t : State} (m : Move k s t) (h : OpenLaw s) : OpenLaw t := by
  obtain ⟨hprogress, hheader⟩ := h
  cases m with
  | closed hb => exact ⟨fun _ => rfl, fun hd hh => hheader hd (by rwa [foldl_resetPlan] at hh)⟩
  | opened hd hp hh => exact ⟨nofun, nofun⟩
  | unit x hx =>
    refine ⟨fun hp => hx.part.trans ?_, fun hd hh => (hx.header hd hh).elim (hheader hd) id⟩
    exact (hx.progress hp).elim hprogress id
  | reset u g hu =>
    exact ⟨fun _ => hu.part, fun hd hh => nomatch hu.header.symm.trans hh⟩
  | _ => exact ⟨hprogress, hheader⟩

/-! ### Plans on lines (R5, R13, R136) -/

/-- A change of one plan context that leaves it off its line, or on a line in use. -/
theorem LiveLaw.setPlan {s : State} (h : LiveLaw s) {i : Slot} {q : Plan}
    (hq : q.state.isLive = true → (s.lineCtl q.line).state ≠ .disabled) : LiveLaw (s.setPlan i q) := by
  intro j
  rw [State.plan_setPlan, State.lineCtl_setPlan]
  split
  · exact hq
  · exact h j

/-- A change of one line that leaves it in use wherever a plan stands on it. -/
theorem LiveLaw.setLine {s : State} (h : LiveLaw s) {l : Line} {c : LineController}
    (hc : ∀ i : Slot, (s.plan i).line = l → (s.plan i).state.isLive = true → c.state ≠ .disabled) :
    LiveLaw (s.setLine l c) := by
  intro j hj
  rw [State.plan_setLine] at hj ⊢
  rw [State.lineCtl_setLine]
  split
  · next hl => exact hc j hl hj
  · exact h j hj

/-- No plan stands on a line. -/
theorem LiveLaw.of_idle {s : State} (h : ∀ i : Slot, (s.plan i).state = .idle) : LiveLaw s := by
  intro i hi
  rw [h i] at hi
  cases hi

theorem Move.keeps_liveLaw {k : Kind} {s t : State} (m : Move k s t) (h : LiveLaw s) : LiveLaw t := by
  cases m with
  | plan i q hq =>
    refine h.setPlan fun hlive => (hq.live hlive).elim (fun ⟨hp, hl⟩ => ?_) id
    rw [hl]
    exact h i hp
  | count i q hq => exact h.setPlan (by rw [hq.state, hq.line]; exact h i)
  | ended i hi => exact LiveLaw.setPlan h nofun
  | freed i hi => exact LiveLaw.setPlan (s := s.setBacklog _) h nofun
  | closed hb =>
    intro i hlive
    have hplan := plan_resetEnded s i
    rw [State.plan_setUnit, State.plan_setBacklog, hplan] at hlive ⊢
    rw [State.lineCtl_setUnit, State.lineCtl_setBacklog, lineCtl_resetEnded]
    split at hlive
    · cases hlive
    · next hne => rw [if_neg hne]; exact h i hlive
  | line l c hc => exact h.setLine fun i hl hi => by rw [Ne, hc.disabled, ← hl]; exact h i hi
  | lineDown l c hd hf hn => exact h.setLine fun i hl hi => by rw [hn i hl] at hi; cases hi
  | lineUp l c hd hf ho => exact h.setLine fun _ _ _ => hd
  | reset u g hu => exact .of_idle fun i => congrArg Plan.state (plan_resetBlocks s i)
  | _ => exact h

/-! ### A CLOSED part (R156) -/

/-- R156: when CLOSE is not refused, every line is DISABLED and no plan is LOADING or ENDING. -/
theorem closeBusy_eq_false {s : State} :
    s.closeBusy = false ↔ (∀ l : Line, (s.lineCtl l).state = .disabled) ∧
      ∀ i : Slot, (s.plan i).state ≠ .loading ∧ (s.plan i).state ≠ .ending := by
  have hall (l : Line) : l ∈ allFour := by revert l; decide
  simp [State.closeBusy, allSlots, hall]

/-- A state of a plan that is neither on its line nor on its way to or from it. -/
theorem isRest_of_not_live {p : PlanState} (hl : p.isLive = false) (hld : p ≠ .loading) (he : p ≠ .ending) :
    p = .idle ∨ p = .ended := by
  cases p <;> simp_all [PlanState.isLive]

/-- A change of one plan context that leaves an IDLE plan IDLE in a CLOSED part. -/
theorem ClosedLaw.setPlan {s : State} (h : ClosedLaw s) {i : Slot} {q : Plan}
    (hq : s.unit.partState = .closed → (s.plan i).state = .idle → q.state = .idle) : ClosedLaw (s.setPlan i q) := by
  intro hc
  obtain ⟨hlines, hplans⟩ := h hc
  refine ⟨hlines, fun j => ?_⟩
  rw [State.plan_setPlan]
  split
  · exact hq hc (hplans i)
  · exact hplans j

/-- A change of one line that leaves a DISABLED line DISABLED in a CLOSED part. -/
theorem ClosedLaw.setLine {s : State} (h : ClosedLaw s) {l : Line} {c : LineController}
    (hd : s.unit.partState = .closed → (s.lineCtl l).state = .disabled → c.state = .disabled) :
    ClosedLaw (s.setLine l c) := by
  intro hc
  obtain ⟨hlines, hplans⟩ := h hc
  refine ⟨fun m => ?_, hplans⟩
  rw [State.lineCtl_setLine]
  split
  · exact hd hc (hlines l)
  · exact hlines m

theorem Move.keeps_closedLaw {k : Kind} {s t : State} (m : Move k s t) (hlive : LiveLaw s) (h : ClosedLaw s) :
    ClosedLaw t := by
  cases m with
  | plan i q hq =>
    refine h.setPlan fun hc hi => (hq.idle hi).elim id fun ho => ?_
    rw [hc] at ho
    cases ho
  | count i q hq => exact h.setPlan fun _ hi => hq.state.trans hi
  | ended i hi => exact ClosedLaw.setPlan h fun _ hidle => nomatch hi.symm.trans hidle
  | freed i hi => exact ClosedLaw.setPlan (s := s.setBacklog _) h fun _ _ => rfl
  | closed hb =>
    obtain ⟨hlines, hplans⟩ := closeBusy_eq_false.mp hb
    intro _
    refine ⟨fun l => (congrArg LineController.state (lineCtl_resetEnded s l)).trans (hlines l), fun i => ?_⟩
    refine (state_resetEnded s i).trans ?_
    have hnot : (s.plan i).state.isLive = false := Bool.eq_false_iff.mpr fun hl => hlive i hl (hlines _)
    split
    · rfl
    · next hne => exact (isRest_of_not_live hnot (hplans i).1 (hplans i).2).resolve_right hne
  | opened hd hp hh => exact nofun
  | line l c hc => exact h.setLine fun _ => hc.disabled.mpr
  | lineDown l c hd hf hn => exact h.setLine fun _ _ => hd
  | lineUp l c hd hf ho => exact h.setLine fun hc => nomatch hc.symm.trans ho
  | unit x hx => exact fun hc => h (hx.part.symm.trans hc)
  | reset u g hu =>
    refine fun _ => ⟨fun l => ?_, fun i => congrArg Plan.state (plan_resetBlocks s i)⟩
    exact congrArg LineController.state (lineCtl_resetBlocks s l)
  | _ => exact h

/-! ### All of them -/

theorem Move.keeps_partLaws {k : Kind} {s t : State} (m : Move k s t) (h : PartLaws s) : PartLaws t where
  pending := m.keeps_pendingLaw h.pending
  hold := m.keeps_holdLaw h
  opening := m.keeps_openLaw h.opening
  live := m.keeps_liveLaw h.live
  closed := m.keeps_closedLaw h.live h.closed

/-- Settles O58: each move keeps the five laws together, OPEN needing that a CLOSED part has no ENDED plan, CLOSE that a plan
on its line is on a line in use. -/
theorem partLawsKept : Obligations.PartLawsKept := by
  intro s t hpending hhold hopening hlive hclosed h
  obtain ⟨h1, h2, h3, h4, h5⟩ :=
    step_keeps (P := PartLaws) Move.keeps_partLaws (fun _ _ hp => ⟨hp.1, hp.2, hp.3, hp.4, hp.5⟩) h
      ⟨hpending, hhold, hopening, hlive, hclosed⟩
  exact ⟨h1, h2, h3, h4, h5⟩

end Sys2Proof.Machine
end

section
/-! The commands that act on plan slots, one equation for each case: START, HALT, RELEASE and CLOSE of a word that has been
taken. -/

namespace Sys2Proof.Machine

/-! ### Words taken (R152) -/

/-- R152: the command word is agent `k`'s command in progress; its verdict is still to come. -/
abbrev State.taken (s : State) (k : Agent) (w : CommandWord) : State := s.setBank k { s.bank k with command := some w }

variable {s : State} {k : Agent} {i : Slot}

theorem exec_closePart (h : s.Accepts k closeCode) :
    exec (.closePart k) s = .next (closePart k (s.taken k (wordOf closeCode 0 0 0))) :=
  congrArg Host.Outcome.next (takeWord_accepted _ h (show closeCode ≠ resetCode by decide))

theorem exec_start (h : s.Accepts k startCode) :
    exec (.start k i) s = .next (startPlan k i (s.taken k (wordOf startCode 0 (slotObject i) 0))) :=
  congrArg Host.Outcome.next (takeWord_accepted _ h (show startCode ≠ resetCode by decide))

theorem exec_halt (h : s.Accepts k haltCode) :
    exec (.halt k i) s = .next (haltPlan k i (s.taken k (wordOf haltCode 0 (slotObject i) 0))) :=
  congrArg Host.Outcome.next (takeWord_accepted _ h (show haltCode ≠ resetCode by decide))

theorem exec_release (h : s.Accepts k releaseCode) :
    exec (.release k i) s = .next (releasePlan k i (s.taken k (wordOf releaseCode 0 (slotObject i) 0))) :=
  congrArg Host.Outcome.next (takeWord_accepted _ h (show releaseCode ≠ resetCode by decide))

/-! ### CLOSE (R23, R156) -/

theorem closeBusy_eq_true :
    s.closeBusy = true ↔ (∃ l : Line, (s.lineCtl l).state ≠ .disabled) ∨
      ∃ i : Slot, (s.plan i).state = .loading ∨ (s.plan i).state = .ending := by
  rw [← Bool.not_eq_false, closeBusy_eq_false]
  simp only [Classical.not_and_iff_not_or_not, Classical.not_forall, Classical.not_not, ne_eq]

/-- R23: the ENDED plans reset one after another are the ENDED plans reset all at once. -/
theorem resetEnded_eq_map (s : State) :
    s.endedSlots.foldl (fun t i => t.setPlan i Plan.reset) s =
      { s with plans := s.plans.map fun p => if p.state = .ended then Plan.reset else p } := by
  rw [foldl_resetPlan]
  congr 1
  refine Vector.ext fun j hj => ?_
  rw [Vector.getElem_map, ← get_eq _ ⟨j, hj⟩, get_foldl_resetPlan]
  simp only [mem_endedSlots]
  rfl

theorem closePart_busy (h : s.closeBusy = true) : closePart k s = postVerdict k .busy 0 s := if_pos h

theorem closePart_done (h : s.closeBusy = false) :
    closePart k s = postVerdict k .done (BitVec.ofNat 16 s.endedSlots.length)
      ((({ s with plans := s.plans.map fun p => if p.state = .ended then Plan.reset else p } : State).setBacklog
        { s.backlog with count := 0, hold := false, masks := Vector.replicate 4 0 }).setUnit
          { s.unit with partState := .closed }) := by
  refine (if_neg (by rw [h]; nofun)).trans ?_
  dsimp only
  rw [resetEnded_eq_map]
  rfl

/-- Settles O8: R156's two conditions are those of `closeBusy`; the plans reset in turn are the plans reset at once. -/
theorem closeReleasesEndedPlans : Obligations.CloseReleasesEndedPlans := by
  intro s h busy
  refine ⟨fun hb => ?_, fun hb => ?_⟩
  · have hbusy : (s.taken 0 (wordOf closeCode 0 0 0)).closeBusy = true := closeBusy_eq_true.mpr hb
    rw [exec_closePart h, closePart_busy hbusy, postVerdict_taken]
    rfl
  · have hfree : (s.taken 0 (wordOf closeCode 0 0 0)).closeBusy = false :=
      Bool.eq_false_iff.mpr fun hc => hb (closeBusy_eq_true.mp hc)
    rw [exec_closePart h, closePart_done hfree]
    exact congrArg Host.Outcome.next (postVerdict_taken
      ((({ s with plans := s.plans.map fun p => if p.state = .ended then Plan.reset else p } : State).setBacklog
        { s.backlog with count := 0, hold := false, masks := Vector.replicate 4 0 }).setUnit
          { s.unit with partState := .closed }) 0 (wordOf closeCode 0 0 0) _ _)

/-! ### START (R4) -/

theorem startPlan_slotInUse (h : (s.plan i).state ≠ .idle) : startPlan k i s = postVerdict k .slotInUse 0 s := if_pos h

theorem startPlan_loads (h : (s.plan i).state = .idle) :
    startPlan k i s =
      askRead
        { addr := slotRecordAddr s.unit.workBase i, length := 64, agent := k, requester := .planUnit,
          op := .slotRecord i, live := true }
        (postPending k (s.setPlan i { s.plan i with state := .loading, agent := k })) :=
  if_neg (not_not_intro h)

/-- Settles O11, by the state of the slot; the slot is taken before the word reads PENDING. -/
theorem startLoadsSlotRecord : Obligations.StartLoadsSlotRecord := by
  intro s k i h
  refine ⟨fun hidle => ?_, fun hused => ?_⟩
  · have hpending := postPending_taken (s.setPlan i { s.plan i with state := .loading, agent := k }) k
      (wordOf startCode 0 (slotObject i) 0)
    rw [exec_start h, startPlan_loads (s := s.taken k _) hidle, ← hpending]
    rfl
  · rw [exec_start h, startPlan_slotInUse (s := s.taken k _) hused, postVerdict_taken]
    rfl

/-! ### HALT (R14) -/

theorem haltPlan_noPlan (h : (s.plan i).state = .idle) : haltPlan k i s = postVerdict k .noPlan 0 s := if_pos h

theorem haltPlan_notPermitted (h : (s.plan i).state ≠ .idle) (hk : ¬(k = (s.plan i).agent ∨ k = 0)) :
    haltPlan k i s = postVerdict k .notPermitted 0 s := by
  unfold haltPlan
  rw [if_neg h, if_pos (not_or.mp hk)]

/-- R14: a permitted HALT goes by the plan's state. -/
theorem haltPlan_permitted (s : State) (k : Agent) (i : Slot) (hk : k = (s.plan i).agent ∨ k = 0) :
    ((s.plan i).state = .loading → haltPlan k i s = postVerdict k .busy 0 s) ∧
    ((s.plan i).state = .queued ∨ (s.plan i).state = .setAside ∨ (s.plan i).state = .waiting →
      haltPlan k i s = haltWaiting i (postVerdict k .done 0 s)) ∧
    ((s.plan i).state = .active → haltPlan k i s = haltActive i (postVerdict k .done 0 s)) ∧
    ((s.plan i).state = .halting → haltPlan k i s = postVerdict k .done 1 s) ∧
    ((s.plan i).state = .ending ∨ (s.plan i).state = .ended → haltPlan k i s = postVerdict k .alreadyEnded 0 s) := by
  have hperm : ¬(k ≠ (s.plan i).agent ∧ k ≠ 0) := fun ⟨h1, h2⟩ => hk.elim h1 h2
  unfold haltPlan
  refine ⟨fun h => ?_, fun h => ?_, fun h => ?_, fun h => ?_, fun h => ?_⟩
  · simp [h, hperm]
  · rcases h with h | h | h <;> simp [h, hperm]
  · simp [h, hperm]
  · simp [h, hperm]
  · rcases h with h | h <;> simp [h, hperm]

/-- Settles O13, by the order of R14 and then by the state of the plan. -/
theorem haltVerdicts : Obligations.HaltVerdicts := by
  intro s k i h p permitted
  have hposted (v : VerdictCode) (n : Half) :
      postVerdict k v n (s.taken k (wordOf haltCode 0 (slotObject i) 0)) = s.posted k haltCode v n :=
    postVerdict_taken _ _ _ _ _
  refine ⟨fun hidle => ?_, fun hstate hk => ?_, fun hk => ?_⟩
  · rw [exec_halt h, haltPlan_noPlan (s := s.taken k _) hidle, hposted]
  · rw [exec_halt h, haltPlan_notPermitted (s := s.taken k _) hstate hk, hposted]
  · obtain ⟨hloading, hwaiting, -, hhalting, hover⟩ :=
      haltPlan_permitted (s.taken k (wordOf haltCode 0 (slotObject i) 0)) k i hk
    refine ⟨fun hs => ?_, fun hs => ?_, fun hs => ?_, fun hs => ?_⟩
    · rw [exec_halt h, hloading hs, hposted]
    · rw [exec_halt h, hwaiting hs, hposted]
      rfl
    · rw [exec_halt h, hhalting hs, hposted]
    · rw [exec_halt h, hover hs, hposted]

/-! ### RELEASE (R22) -/

theorem releasePlan_noPlan (h : (s.plan i).state = .idle) : releasePlan k i s = postVerdict k .noPlan 0 s := if_pos h

theorem releasePlan_notPermitted (h : (s.plan i).state ≠ .idle) (hk : ¬(k = (s.plan i).agent ∨ k = 0)) :
    releasePlan k i s = postVerdict k .notPermitted 0 s := by
  unfold releasePlan
  rw [if_neg h, if_pos (not_or.mp hk)]

/-- R22: a permitted RELEASE goes by the plan's state. -/
theorem releasePlan_permitted (s : State) (k : Agent) (i : Slot) (hk : k = (s.plan i).agent ∨ k = 0) :
    ((s.plan i).state = .loading ∨ (s.plan i).state = .ending → releasePlan k i s = postVerdict k .busy 0 s) ∧
    ((s.plan i).state.isLive = true → releasePlan k i s = postVerdict k .wrongState 0 s) ∧
    ((s.plan i).state = .ended → releasePlan k i s = freeSlot i (postVerdict k .done 0 s)) := by
  have hperm : ¬(k ≠ (s.plan i).agent ∧ k ≠ 0) := fun ⟨h1, h2⟩ => hk.elim h1 h2
  unfold releasePlan
  refine ⟨fun h => ?_, fun h => ?_, fun h => ?_⟩
  · rcases h with h | h <;> simp [h, hperm]
  · have hrest : (s.plan i).state ≠ .idle ∧ (s.plan i).state ≠ .loading ∧ (s.plan i).state ≠ .ending ∧
        (s.plan i).state ≠ .ended := by
      refine ⟨?_, ?_, ?_, ?_⟩ <;> (intro hs; rw [hs] at h; cases h)
    simp [hrest, hperm]
  · simp [h, hperm]

/-- The state with an ENDED slot freed, before any selection (R20 to R22). -/
def State.freed (s : State) (i : Slot) : State := (s.setBacklog (s.backlog.leave (s.plan i).agent i)).setPlan i Plan.reset

theorem freeSlot_clearsHold (hh : s.backlog.hold = true) (hc : s.backlog.count - 1 ≤ s.backlog.lowMark) :
    freeSlot i s = selectAll (s.freed i) := by
  refine if_pos ?_
  simp [Backlog.leave, hh, hc]

theorem freeSlot_keepsHold (h : ¬(s.backlog.hold = true ∧ s.backlog.count - 1 ≤ s.backlog.lowMark)) :
    freeSlot i s = s.freed i := by
  refine if_neg fun hc => h ?_
  simp only [State.backlog_setPlan, State.backlog_setBacklog, Backlog.leave, Bool.and_eq_true, Bool.not_eq_true',
    Bool.and_eq_false_iff] at hc
  obtain ⟨hh, hl⟩ := hc
  simpa [hh] using hl

end Sys2Proof.Machine
end

section
/-! Selections (R21, R52, R62): what they leave alone, and the selections that follow a hold that is cleared. -/

namespace Sys2Proof.Machine

variable {s : State} {l : Line}

theorem firstEligible_isSome : (s.firstEligible l).isSome = true ↔ ∃ e ∈ (s.sched l).queue, s.eligible l e = true := by
  simp [State.firstEligible, List.find?_isSome]

/-- R52: a selection chooses a plan on a line in service without a holder that has an eligible entry. -/
theorem wouldChoose_iff :
    s.wouldChoose l = true ↔
      (s.sched l).holder = none ∧ s.inService l = true ∧ ∃ e ∈ (s.sched l).queue, s.eligible l e = true := by
  simp only [State.wouldChoose, Bool.and_eq_true, Option.isNone_iff_eq_none, firstEligible_isSome, and_assoc]

/-- R52: a selection that would choose no plan changes nothing. -/
theorem select_of_not_wouldChoose (h : s.wouldChoose l = false) : select l s = s := by
  unfold select selectFrom
  split
  · next hfree =>
    split
    · rfl
    · next e he => simp [State.wouldChoose, hfree, he] at h
  · rfl

/-- The lines on which a selection would choose a plan. -/
def State.choosing (s : State) : List Line := allFour.filter fun l => s.wouldChoose l

theorem mem_choosing : l ∈ s.choosing ↔ s.wouldChoose l = true := by
  have hall : l ∈ allFour := by revert l; decide
  simp [State.choosing, hall]

theorem nodup_choosing (s : State) : s.choosing.Nodup := List.Pairwise.filter _ (show allFour.Nodup by decide)

/-- R21: the selections of a cleared hold are those of the choosing lines, in an order of the model's choice (log 4). -/
theorem selectAll_eq (s : State) :
    selectAll s = (freeOrder s.choices s.choosing).1.foldl (fun t l => select l t)
      (s.setChoices (freeOrder s.choices s.choosing).2) := rfl

/-- No line chooses: nothing changes. -/
theorem selectAll_none (h : s.choosing = []) : selectAll s = s := by
  rw [selectAll_eq, h]
  rfl

/-- One line chooses: there is one order. -/
theorem selectAll_single (h : s.choosing = [l]) : selectAll s = select l s := by
  rw [selectAll_eq, h]
  rfl

/-- When no other line chooses, the selections are the one of this line, chosen or not. -/
theorem selectAll_eq_select (h : ∀ m : Line, m ≠ l → s.wouldChoose m = false) : selectAll s = select l s := by
  have hsub : ∀ m ∈ s.choosing, m = l := fun m hm => by
    refine Decidable.byContradiction fun hne => ?_
    rw [mem_choosing, h m hne] at hm
    cases hm
  by_cases hl : s.wouldChoose l = true
  · have hperm : s.choosing.Perm [l] := by
      refine (List.perm_ext_iff_of_nodup (nodup_choosing s) (List.pairwise_singleton _ l)).mpr fun m => ?_
      rw [List.mem_singleton]
      exact ⟨hsub m, fun hm => hm ▸ mem_choosing.mpr hl⟩
    exact selectAll_single (List.perm_singleton.mp hperm)
  · have hl : s.wouldChoose l = false := Bool.eq_false_iff.mpr hl
    rw [select_of_not_wouldChoose hl]
    refine selectAll_none (List.eq_nil_iff_forall_not_mem.mpr fun m hm => ?_)
    have hml := hsub m hm
    rw [mem_choosing, hml, hl] at hm
    cases hm

/-- Settles O16: R22's checks in their order, the slot freed, and the selections as the choosing lines in a free order. -/
theorem releaseFreesEndedSlot : Obligations.ReleaseFreesEndedSlot := by
  refine ⟨fun s k i h => ?_, fun s => ?_⟩
  · intro p b permitted freed
    have hposted (v : VerdictCode) (n : Half) :
        postVerdict k v n (s.taken k (wordOf releaseCode 0 (slotObject i) 0)) = s.posted k releaseCode v n :=
      postVerdict_taken _ _ _ _ _
    refine ⟨fun hidle => ?_, fun hstate hk => ?_, fun hk => ?_⟩
    · rw [exec_release h, releasePlan_noPlan (s := s.taken k _) hidle, hposted]
    · rw [exec_release h, releasePlan_notPermitted (s := s.taken k _) hstate hk, hposted]
    · obtain ⟨hbusy, hlive, hended⟩ :=
        releasePlan_permitted (s.taken k (wordOf releaseCode 0 (slotObject i) 0)) k i hk
      refine ⟨fun hs => ?_, fun hs => ?_, fun hs hh hc => ?_, fun hs hh => ?_⟩
      · rw [exec_release h, hbusy hs, hposted]
      · rw [exec_release h, hlive hs, hposted]
      · rw [exec_release h, hended hs, hposted, freeSlot_clearsHold (s := s.posted _ _ _ _) hh hc]
        rfl
      · rw [exec_release h, hended hs, hposted, freeSlot_keepsHold (s := s.posted _ _ _ _) hh]
        rfl
  · intro chooses
    have hchooses (l : Line) : s.wouldChoose l = true ↔ chooses l := wouldChoose_iff
    have hnot {l : Line} (hl : ¬chooses l) : s.wouldChoose l = false :=
      Bool.eq_false_iff.mpr fun hc => hl ((hchooses l).mp hc)
    have hperm := freeOrder_perm s.choosing s.choices
    refine ⟨⟨_, _, ?_, fun l => ?_, selectAll_eq s⟩, fun l hl => select_of_not_wouldChoose (hnot hl),
      fun l hothers => selectAll_eq_select fun m hm => hnot (hothers m hm)⟩
    · exact hperm.nodup_iff.mpr (nodup_choosing s)
    · rw [hperm.mem_iff, mem_choosing, hchooses]

end Sys2Proof.Machine
end

section
/-! Plans between runs: the interval timer (R10), the end of a run (R8, R9), making a plan the holder (R7, R27, R53). -/

namespace Sys2Proof.Machine

variable {s : State} {i : Slot}

/-- R10: a plan in its run remembers that its interval has expired. -/
theorem intervalExpires_inRun
    (h : (s.plan i).state = .active ∨ (s.plan i).state = .halting ∨ (s.plan i).state = .setAside) :
    intervalExpires i s = s.setPlan i { s.plan i with intervalTimer := .stopped, intervalExpired := true } := by
  unfold intervalExpires
  rcases h with h | h | h <;> simp [h]

/-- R10: a WAITING plan joins its run queue, and a selection follows. -/
theorem intervalExpires_waiting (h : (s.plan i).state = .waiting) :
    intervalExpires i s =
      select (s.plan i).line
        (joinQueue i (s.setPlan i { s.plan i with intervalTimer := .stopped, state := .queued })) := by
  unfold intervalExpires
  simp [h]

theorem exec_intervalExpiry (h : (s.plan i).intervalTimer.isRunning = true) :
    exec (.intervalExpiry i) s = .next (intervalExpires i s) := congrArg Host.Outcome.next (if_pos h)

/-! ### Making a plan the holder (R7, R27, R53) -/

/-- R7: the context at the start of a run, field by field. -/
theorem startRun_eq (p : Plan) :
    p.startRun = { p with
      currentAddr := p.firstAddr, completed := 0, savedAfterJump := false,
      intervalTimer := if p.interval = 0 then p.intervalTimer else .running p.interval.toNat,
      intervalExpired := if p.interval = 0 then p.intervalExpired else false } := by
  unfold Plan.startRun
  by_cases h : p.interval = 0
  · simp only [h, if_true]
  · simp only [h, if_false]

/-- Settles O23: a SET_ASIDE plan resumes, any other starts its run. -/
theorem activationStartsOrResumes : Obligations.ActivationStartsOrResumes := by
  intro s l i p x t
  have hsched : (leaveQueue l i s).modSched l (fun x => { x with holder := some i }) = t := by
    unfold leaveQueue
    rw [State.modSched_eq, State.modSched_eq, State.sched_setSched_self, State.setSched_setSched]
  refine ⟨fun hs => ?_, fun hs => ?_⟩
  · refine (if_pos hs).trans ?_
    rw [hsched]
    rfl
  · refine (if_neg hs).trans ?_
    rw [hsched, startRun_eq]
    rfl

/-! ### The end of a run (R8, R9) -/

/-- R9: what a cyclic plan becomes when its interval is still running. -/
theorem afterRun_waiting {p : Plan} (h : p.intervalExpired = false) : p.afterRun = { p with state := .waiting } :=
  if_neg (by rw [h]; nofun)

/-- R9: what a cyclic plan becomes when its interval has expired. -/
theorem afterRun_queued {p : Plan} (h : p.intervalExpired = true) :
    p.afterRun = { p with state := .queued, overruns := satHalf p.overruns, intervalExpired := false } := if_pos h

/-- The holder's context as a run end leaves it, before what follows: the run counted and, with NOTE_RUNS, its note taken. -/
def Plan.runCounted (p : Plan) : Plan :=
  if p.noteRuns then { p.countRun with notePosition := p.completed, progressOwed := true } else p.countRun

@[simp] theorem intervalExpired_runCounted (p : Plan) : p.runCounted.intervalExpired = p.intervalExpired := by
  unfold Plan.runCounted
  split <;> rfl

@[simp] theorem overruns_runCounted (p : Plan) : p.runCounted.overruns = p.overruns := by
  unfold Plan.runCounted
  split <;> rfl

/-- The state as a run end counts it. -/
theorem setPlan_runCounted (s : State) (i : Slot) :
    (if ((s.modPlan i Plan.countRun).plan i).noteRuns = true then takeNote i (s.modPlan i Plan.countRun)
      else s.modPlan i Plan.countRun) = s.setPlan i (s.plan i).runCounted := by
  unfold Plan.runCounted
  simp only [State.modPlan_eq, State.plan_setPlan_self]
  by_cases h : (s.plan i).noteRuns = true
  · rw [if_pos h, if_pos (show (s.plan i).countRun.noteRuns = true from h)]
    unfold takeNote
    simp only [State.modPlan_eq, State.plan_setPlan_self, State.setPlan_setPlan]
    rfl
  · rw [if_neg h, if_neg (show ¬(s.plan i).countRun.noteRuns = true from h)]

/-- R8: the end of a single-run plan. -/
theorem runEnd_single {l : Line} (ha : (s.plan (s.slotOf l)).state = .active)
    (hi : (s.plan (s.slotOf l)).interval = 0) :
    runEnd l s = endHolder l .done .none (s.setPlan (s.slotOf l) (s.plan (s.slotOf l)).countRun) := by
  unfold runEnd
  rw [if_neg (not_not_intro ha)]
  refine if_pos ?_
  rw [State.modPlan_eq, State.plan_setPlan_self]
  exact hi

/-- R9: the end of a run of a cyclic plan. -/
theorem runEnd_cyclic {l : Line} (ha : (s.plan (s.slotOf l)).state = .active)
    (hi : (s.plan (s.slotOf l)).interval ≠ 0) :
    let t := clearHolder l (leaveWalk l (s.setPlan (s.slotOf l) (s.plan (s.slotOf l)).runCounted.afterRun))
    runEnd l s = pumpProgress (s.slotOf l)
      (if (s.plan (s.slotOf l)).intervalExpired then joinQueue (s.slotOf l) t else t) := by
  intro t
  have hcyclic : ((s.modPlan (s.slotOf l) Plan.countRun).plan (s.slotOf l)).interval ≠ 0 := by
    rw [State.modPlan_eq, State.plan_setPlan_self]
    exact hi
  unfold runEnd
  rw [if_neg (not_not_intro ha)]
  dsimp only
  rw [if_neg hcyclic, setPlan_runCounted, State.modPlan_eq, State.plan_setPlan_self, State.setPlan_setPlan,
    intervalExpired_runCounted]

/-- Settles O18, by the interval of the plan and whether it has expired. -/
theorem runEnds : Obligations.RunEnds := by
  intro s l i p c noted ha
  have hnoted : noted = p.runCounted := rfl
  refine ⟨fun hi => runEnd_single ha hi, fun hi he => ?_, fun hi he => ?_⟩
  · have he' : (s.plan (s.slotOf l)).intervalExpired = false := he
    rw [runEnd_cyclic ha hi, he', afterRun_waiting (by simpa using he'), hnoted]
    rfl
  · have he' : (s.plan (s.slotOf l)).intervalExpired = true := he
    rw [runEnd_cyclic ha hi, he', afterRun_queued (by simpa using he'), hnoted, overruns_runCounted]
    rfl

end Sys2Proof.Machine

namespace Sys2Proof

open Machine

/-- Settles O17, by the state of the plan. -/
theorem intervalExpires : Obligations.IntervalExpires := by
  intro s i hrun p
  rw [exec_intervalExpiry hrun]
  exact ⟨fun hs => congrArg _ (intervalExpires_inRun hs), fun hs => congrArg _ (intervalExpires_waiting hs)⟩

end Sys2Proof
end

section
/-! The Plan Unit's reports: the end of a plan (R11, R17), status writes and their answers (R18 to R21). -/

namespace Sys2Proof.Machine

variable {s : State} {i : Slot} {l : Line}

/-! ### The final status write (R19) -/

/-- R19: the final status write handed over, and the folded note forgotten; the two changes do not meet. -/
theorem queueFinal_eq (i : Slot) (s : State) :
    queueFinal i s =
      handOver (statusEntry i (s.plan i).endCode (.finalStatus i (s.plan i).noteFolded) s)
        (s.setPlan i { s.plan i with noteFolded := false }) := rfl

theorem reportAfterAnswer_notEnding (h : (s.plan i).state ≠ .ending) : reportAfterAnswer i s = pumpProgress i s :=
  if_neg h

theorem reportAfterAnswer_waits (h : (s.plan i).state = .ending) (ho : (s.plan i).outstanding ≠ 0) :
    reportAfterAnswer i s = s := (if_pos h).trans (if_neg ho)

theorem reportAfterAnswer_ends (h : (s.plan i).state = .ending) (ho : (s.plan i).outstanding = 0) :
    reportAfterAnswer i s = queueFinal i s := (if_pos h).trans (if_pos ho)

/-! ### The progress write (R18) -/

theorem progressDue_iff (p : Plan) :
    p.progressDue = true ↔ p.progressOwed = true ∧ p.outstanding = 0 ∧ p.state ≠ .ending ∧ p.state ≠ .ended := by
  simp only [Plan.progressDue, Bool.and_eq_true, decide_eq_true_eq, and_assoc]

theorem pumpProgress_due (h : (s.plan i).progressDue = true) :
    pumpProgress i s =
      (handOver (statusEntry i .none (.progress i) s) s).setPlan i
        { s.plan i with progressOwed := false, outstanding := (s.plan i).outstanding + 1 } := if_pos h

theorem pumpProgress_notDue (h : ¬(s.plan i).progressDue = true) : pumpProgress i s = s := if_neg h

/-! ### The end of a plan (R11, R17) -/

theorem isOver_iff (p : PlanState) : p.isOver = true ↔ p = .idle ∨ p = .ending ∨ p = .ended := by
  cases p <;> simp [PlanState.isOver]

theorem endPlan_over {code : EndCode} {detail : FaultDetail} (h : (s.plan i).state.isOver = true) :
    endPlan i code detail s = s := if_pos h

/-- R11, R19: a plan that ends with writes outstanding waits for their answers. -/
theorem endPlan_outstanding {code : EndCode} {detail : FaultDetail} (h : (s.plan i).state.isOver ≠ true)
    (ho : (s.plan i).outstanding ≠ 0) :
    endPlan i code detail s = s.setPlan i ((s.plan i).toEnding code detail) := by
  refine (if_neg h).trans (if_neg ?_)
  rw [State.modPlan_eq, State.plan_setPlan_self]
  exact ho

/-- R11, R19: a plan that ends with no write outstanding queues its final status write at once. -/
theorem endPlan_reports {code : EndCode} {detail : FaultDetail} (h : (s.plan i).state.isOver ≠ true)
    (ho : (s.plan i).outstanding = 0) :
    endPlan i code detail s = queueFinal i (s.setPlan i ((s.plan i).toEnding code detail)) := by
  refine (if_neg h).trans (if_pos ?_)
  rw [State.modPlan_eq, State.plan_setPlan_self]
  exact ho

@[simp] theorem walk_endPlan (i : Slot) (code : EndCode) (detail : FaultDetail) (s : State) (m : Line) :
    (endPlan i code detail s).walk m = s.walk m := congrArg (·.get m) (endPlan_moves i code detail s).walks_eq

@[simp] theorem sched_endPlan (i : Slot) (code : EndCode) (detail : FaultDetail) (s : State) (m : Line) :
    (endPlan i code detail s).sched m = s.sched m := congrArg (·.get m) (endPlan_moves i code detail s).scheds_eq

/-- R11, R31, R44: the end of a holder, field by field. -/
theorem endHolder_eq (l : Line) (code : EndCode) (detail : FaultDetail) (s : State) :
    let t := endPlan (s.slotOf l) code detail s
    endHolder l code detail s =
      ((t.setPort (t.port.detach l)).setWalk l { s.walk l with state := .noHolder, group := [], pause := .stopped }).setSched
        l { s.sched l with holder := none } := by
  intro t
  have hw : t.walk l = s.walk l := walk_endPlan _ _ _ _ _
  have hx : t.sched l = s.sched l := sched_endPlan _ _ _ _ _
  rw [← hw, ← hx]
  rfl

/-- Settles O15, by whether the plan is over and whether a write of it is outstanding. -/
theorem endingAPlan : Obligations.EndingAPlan := by
  refine ⟨fun s i code detail => ?_, fun s l code detail => ⟨endHolder_eq l code detail s, rfl⟩⟩
  intro p ended q
  refine ⟨fun h => endPlan_over ((isOver_iff _).mpr h), fun h ho => ?_, fun h ho => ?_⟩
  · exact endPlan_outstanding (fun hc => h ((isOver_iff _).mp hc)) ho
  · rw [endPlan_reports (fun hc => h ((isOver_iff _).mp hc)) ho, queueFinal_eq, State.setPlan_setPlan]
    unfold statusEntry
    rw [State.plan_setPlan_self]
    rfl

/-! ### Answers (R18 to R21) -/

/-- R18: the answer to a progress write. -/
theorem progressAnswered_eq (i : Slot) (a : WriteAnswer) (s : State) :
    progressAnswered i (acceptedBy a) s =
      reportAfterAnswer i
        (((s.setAlarm (s.plan i).agent { s.alarm (s.plan i).agent with note := true }).logReject a .statusLost
          (s.plan i).line (BitVec.ofNat 8 i.val) (s.plan i).agent).setPlan i
            { s.plan i with outstanding := (s.plan i).outstanding - 1 }) := by
  cases a <;> rfl

/-- R18: the bytes of a status write. -/
theorem statusPart_eq (p : Plan) (code : EndCode) :
    p.statusPart code =
      [code.byte, p.faultDetail.byte, if p.detailLine then 1 else 0, p.lastRun.byte] ++ wordBytes p.currentAddr ++
        [BitVec.ofNat 8 p.completed, BitVec.ofNat 8 p.notePosition] ++ halfBytes p.overruns ++ wordBytes p.runCount ++
        wordBytes p.labelEcho ++ List.replicate 12 0 := rfl

/-- Settles O19: the answer reaches its plan, and the next status write goes by what the context then holds. -/
theorem progressWriteAnswered : Obligations.ProgressWriteAnswered := by
  refine ⟨fun s e i a hw he => ?_, fun s i => ?_, fun p code => ⟨statusPart_eq p code, by decide, by decide, by decide⟩⟩
  · intro u p
    refine congrArg Host.Outcome.next ?_
    rw [answerWrite_writing _ a hw (by rw [he]; rfl)]
    unfold deliverWrite
    rw [he]
    exact progressAnswered_eq i a s.afterWrite
  · intro p due status
    refine ⟨fun h => ?_, fun h => pumpProgress_notDue fun hd => h ((progressDue_iff _).mp hd),
      reportAfterAnswer_notEnding, reportAfterAnswer_waits, fun h ho => ?_⟩
    · rw [pumpProgress_due ((progressDue_iff _).mpr h), h.2.1]
      rfl
    · rw [reportAfterAnswer_ends h ho]
      rfl

theorem setAlarm_alarm (s : State) (k : Agent) : s.setAlarm k (s.alarm k) = s :=
  congrArg (fun v => ({ s with alarms := v } : State)) (upd_get s.alarms k)

/-- R19, R20: the answer to the final status write of an ENDING plan. -/
theorem finalAnswered_eq {i : Slot} {s : State} (note : Bool) (a : WriteAnswer) (h : (s.plan i).state = .ending) :
    let p := s.plan i
    finalAnswered i note (acceptedBy a) s =
      (((s.setPlan i { p with state := .ended }).setBacklog
        (s.backlog.enter (decide (s.unit.partState = .opened)) p.agent i)).setAlarm p.agent
          { s.alarm p.agent with note := (s.alarm p.agent).note || note }).logReject a .statusLost p.line
            (BitVec.ofNat 8 i.val) p.agent := by
  intro p
  refine (if_pos h).trans ?_
  cases note
  · rw [Bool.or_false, show { s.alarm p.agent with note := (s.alarm p.agent).note } = s.alarm p.agent from rfl]
    refine Eq.trans ?_ (congrArg (fun t : State => t.logReject a .statusLost p.line (BitVec.ofNat 8 i.val) p.agent)
      (setAlarm_alarm ((s.setPlan i { p with state := .ended }).setBacklog
        (s.backlog.enter (decide (s.unit.partState = .opened)) p.agent i)) p.agent)).symm
    cases a <;> rfl
  · rw [Bool.or_true]
    cases a <;> rfl

/-- Settles O20: the answer reaches its plan, which is ENDED whether memory took the write or not. -/
theorem finalStatusAnswered : Obligations.FinalStatusAnswered := by
  intro s e i note a hw he u p b h
  refine congrArg Host.Outcome.next ?_
  rw [answerWrite_writing _ a hw (by rw [he]; rfl)]
  unfold deliverWrite
  rw [he]
  exact finalAnswered_eq note a h

end Sys2Proof.Machine
end

section
/-! The slot record (R5, R6): its checks, the context of an accepted plan, the answer to START's read. -/

namespace Sys2Proof.Machine

variable {s : State} {i : Slot} {k : Agent} {data : List Byte}

/-- A byte of at most 3 names the line of that number. -/
theorem low2_val {b : Byte} (h : b.toNat ≤ 3) : (low2 b).val = b.toNat := Nat.mod_eq_of_lt (by omega)

theorem low2_eq {b : Byte} {l : Fin 4} (h : b.toNat = l.val) : low2 b = l :=
  Fin.ext ((low2_val (by omega)).trans h)

/-- R162: 32 bytes inside a window. -/
theorem contains_descriptor (w : Window) (a : Word) :
    w.contains a 32 = true ↔ w.base.toNat ≤ a.toNat ∧ a.toNat + 32 ≤ w.limit.toNat := by
  simp [Window.contains]

/-- R5: the fields of the record that are checked first. -/
def legalRequest (data : List Byte) : Prop :=
  (byteAt data 0).toNat ≤ 3 ∧ (byteAt data 1).toNat ≤ 7 ∧ (wordAt data 4).toNat ≤ longestInterval

theorem checkSlotRecord_invalid (h : ¬legalRequest data) : s.checkSlotRecord k data = some .invalidArgument := by
  unfold State.checkSlotRecord
  by_cases hline : 3 < (byteAt data 0).toNat
  · exact if_pos hline
  by_cases hclass : 7 < (byteAt data 1).toNat
  · exact (if_neg hline).trans (if_pos hclass)
  have hinterval : longestInterval < (wordAt data 4).toNat :=
    Nat.lt_of_not_le fun hle => h ⟨Nat.le_of_not_lt hline, Nat.le_of_not_lt hclass, hle⟩
  exact (if_neg hline).trans ((if_neg hclass).trans (if_pos hinterval))

/-- R5: after the request, the line, the alignment of the first descriptor and the window are checked. -/
theorem checkSlotRecord_legal (h : legalRequest data) :
    s.checkSlotRecord k data =
      if (s.lineCtl (low2 (byteAt data 0))).state = .disabled then some .lineNotReady
      else if (wordAt data 8).toNat % 32 ≠ 0 then some .window
      else if !(s.port.window k).contains (wordAt data 8) 32 then some .window
      else none := by
  obtain ⟨hline, hclass, hinterval⟩ := h
  unfold State.checkSlotRecord
  rw [if_neg (Nat.not_lt.mpr hline), if_neg (Nat.not_lt.mpr hclass), if_neg (Nat.not_lt.mpr hinterval)]

theorem checkSlotRecord_lineNotReady (h : legalRequest data)
    (hl : (s.lineCtl (low2 (byteAt data 0))).state = .disabled) : s.checkSlotRecord k data = some .lineNotReady := by
  rw [checkSlotRecord_legal h, if_pos hl]

theorem checkSlotRecord_unaligned (h : legalRequest data)
    (hl : (s.lineCtl (low2 (byteAt data 0))).state ≠ .disabled) (ha : (wordAt data 8).toNat % 32 ≠ 0) :
    s.checkSlotRecord k data = some .window := by
  rw [checkSlotRecord_legal h, if_neg hl, if_pos ha]

theorem checkSlotRecord_outside (h : legalRequest data)
    (hl : (s.lineCtl (low2 (byteAt data 0))).state ≠ .disabled) (ha : (wordAt data 8).toNat % 32 = 0)
    (hw : ¬(s.port.window k).contains (wordAt data 8) 32 = true) : s.checkSlotRecord k data = some .window := by
  rw [checkSlotRecord_legal h, if_neg hl, if_neg (not_not_intro ha), if_pos (by simpa using hw)]

theorem checkSlotRecord_passes (h : legalRequest data)
    (hl : (s.lineCtl (low2 (byteAt data 0))).state ≠ .disabled) (ha : (wordAt data 8).toNat % 32 = 0)
    (hw : (s.port.window k).contains (wordAt data 8) 32 = true) : s.checkSlotRecord k data = none := by
  rw [checkSlotRecord_legal h, if_neg hl, if_neg (not_not_intro ha), if_neg (by simpa using hw)]

/-- R5: the answer is a reject. -/
theorem slotAnswered_reject (h : (s.plan i).state = .loading) :
    slotAnswered i .reject s = postVerdict (s.plan i).agent .loadFault 0 (s.setPlan i Plan.reset) :=
  if_neg (not_not_intro h)

/-- R5: a record that fails a check. -/
theorem slotAnswered_refused {v : VerdictCode} (h : (s.plan i).state = .loading)
    (hc : s.checkSlotRecord (s.plan i).agent data = some v) :
    slotAnswered i (.accept data) s = postVerdict (s.plan i).agent v 0 (s.setPlan i Plan.reset) := by
  refine (if_neg (not_not_intro h)).trans ?_
  simp only [hc]

/-- R6: a record that passes the checks. -/
theorem slotAnswered_loads (h : (s.plan i).state = .loading)
    (hc : s.checkSlotRecord (s.plan i).agent data = none) :
    slotAnswered i (.accept data) s =
      select (loadedPlan (s.plan i).agent data).line
        (postVerdict (s.plan i).agent .done 0 (joinQueue i (s.setPlan i (loadedPlan (s.plan i).agent data)))) := by
  refine (if_neg (not_not_intro h)).trans ?_
  simp only [hc]

/-- R166: the answer to START's read reaches its slot. -/
theorem exec_slotLoadAnswer {r : ReadRequest} {a : ReadAnswer} (hr : s.Reading r) (ho : r.op = .slotRecord i)
    (hl : a.hasLength r.length = true) : exec (.slotLoadAnswer a) s = .next (slotAnswered i a s.afterRead) := by
  refine congrArg Host.Outcome.next ?_
  rw [answerRead_reading _ a hr (by rw [ho]; rfl) hl]
  unfold deliverRead
  rw [hr.2, ho]
  rfl

/-- Settles O12: each check that fails gives its verdict, and a record that passes them all is loaded. -/
theorem slotRecordAnswered : Obligations.SlotRecordAnswered := by
  refine ⟨fun s r i a hr ho hlen hp => ?_, fun s r i data l hr ho hlen hp h0 h1 h4 hl ha => ?_⟩
  · intro k refuse
    have hrefuse {v : VerdictCode} {data : List Byte} (ha : a = .accept data)
        (hc : s.afterRead.checkSlotRecord k data = some v) : refuse v := by
      subst ha
      exact (exec_slotLoadAnswer hr ho hlen).trans (congrArg _ (slotAnswered_refused hp hc))
    refine ⟨fun ha => ?_, ?_⟩
    · subst ha
      exact (exec_slotLoadAnswer hr ho hlen).trans (congrArg _ (slotAnswered_reject hp))
    · intro data ha request lineUp first inside
      have hup (hreq : request) (hl : lineUp) : (s.afterRead.lineCtl (low2 (byteAt data 0))).state ≠ .disabled :=
        hl _ (low2_val hreq.1)
      refine ⟨fun hreq => hrefuse ha (checkSlotRecord_invalid hreq), fun hreq hl => ?_, fun hreq hl hal => ?_,
        fun hreq hl hal hw => ?_⟩
      · refine hrefuse ha (checkSlotRecord_lineNotReady hreq ?_)
        refine Decidable.byContradiction fun hne => ?_
        exact hl fun m hm => low2_eq hm.symm ▸ hne
      · exact hrefuse ha (checkSlotRecord_unaligned hreq (hup hreq hl) hal)
      · exact hrefuse ha (checkSlotRecord_outside hreq (hup hreq hl) hal fun hc => hw ((contains_descriptor _ _).mp hc))
  · intro k hbase hlimit
    have hline : low2 (byteAt data 0) = l := low2_eq h0
    have hpass : s.afterRead.checkSlotRecord k data = none := by
      refine checkSlotRecord_passes ⟨by omega, h1, h4⟩ ?_ ha ((contains_descriptor _ _).mpr ⟨hbase, hlimit⟩)
      rw [hline]
      exact hl
    refine (exec_slotLoadAnswer hr ho (by simpa [ReadAnswer.hasLength] using hlen)).trans ?_
    rw [slotAnswered_loads (s := s.afterRead) hp hpass, ← hline]
    rfl

end Sys2Proof.Machine
end

section
/-! LINE_DISABLE (R13, R136): the command by the state of its line, and what the ending step leaves. -/

namespace Sys2Proof.Machine

variable {s : State} {l : Line}

/-! ### The plans that are ended (R13) -/

theorem PlanKept.trans {p q r : Plan} (h : PlanKept p q) (g : PlanKept q r) : PlanKept p r :=
  ⟨g.state.trans h.state, g.agent.trans h.agent, g.line.trans h.line, g.baseClass.trans h.baseClass,
    g.effClass.trans h.effClass, g.endCode.trans h.endCode, g.faultDetail.trans h.faultDetail,
    g.detailLine.trans h.detailLine⟩

theorem PlanKept.refl (p : Plan) : PlanKept p p := ⟨rfl, rfl, rfl, rfl, rfl, rfl, rfl, rfl⟩

/-- Ending a plan leaves the plans of other slots. -/
theorem planKept_endPlan {i j : Slot} (hj : j ≠ i) (code : EndCode) (detail : FaultDetail) (s : State) :
    PlanKept (s.plan j) ((endPlan i code detail s).plan j) := by
  by_cases h : (s.plan i).state.isOver = true
  · rw [endPlan_over h]
    exact .refl _
  · have hset : PlanKept (s.plan j) ((s.setPlan i ((s.plan i).toEnding code detail)).plan j) := by
      rw [State.plan_setPlan_ne _ _ hj]
      exact .refl _
    by_cases ho : (s.plan i).outstanding = 0
    · rw [endPlan_reports h ho]
      exact hset.trans ((queueFinal_moves i _).planKept j)
    · rw [endPlan_outstanding h ho]
      exact hset

/-- R11: a plan that ends is ENDING, with its end code and its fault detail, whether its final status write waits or not. -/
theorem plan_endPlan {i : Slot} {code : EndCode} {detail : FaultDetail} (h : (s.plan i).state.isOver ≠ true) :
    PlanKept ((s.plan i).toEnding code detail) ((endPlan i code detail s).plan i) := by
  by_cases ho : (s.plan i).outstanding = 0
  · rw [endPlan_reports h ho]
    have hkept := (queueFinal_moves i (s.setPlan i ((s.plan i).toEnding code detail))).planKept i
    rwa [State.plan_setPlan_self] at hkept
  · rw [endPlan_outstanding h ho, State.plan_setPlan_self]
    exact .refl _

/-- R13: `q` is the context `p` of a plan that LINE_DISABLE has ended. -/
structure DisabledPlan (p q : Plan) : Prop where
  state : q.state = .ending
  endCode : q.endCode = if p.state = .halting then .halted else .faulted
  faultDetail : q.faultDetail = if p.state = .halting then .none else .lineDisabled

theorem DisabledPlan.of_kept {p p' q q' : Plan} (h : DisabledPlan p' q) (hp : PlanKept p p') (hq : PlanKept q q') :
    DisabledPlan p q' where
  state := hq.state.trans h.state
  endCode := by rw [hq.endCode, h.endCode, hp.state]
  faultDetail := by rw [hq.faultDetail, h.faultDetail, hp.state]

theorem not_isOver_of_isLive {p : PlanState} (h : p.isLive = true) : p.isOver ≠ true := by
  cases p <;> simp_all [PlanState.isLive, PlanState.isOver]

theorem planKept_disablePlan {i j : Slot} (hj : j ≠ i) (s : State) :
    PlanKept (s.plan j) ((disablePlan i s).plan j) := by
  unfold disablePlan
  split <;> exact planKept_endPlan hj _ _ s

/-- R13: a HALTING plan ends HALTED, any other FAULTED with LINE_DISABLED. -/
theorem plan_disablePlan {i : Slot} (h : (s.plan i).state.isLive = true) :
    DisabledPlan (s.plan i) ((disablePlan i s).plan i) := by
  have hover := not_isOver_of_isLive h
  unfold disablePlan
  split
  · next hs =>
    have hkept := plan_endPlan (code := .halted) (detail := .none) hover
    exact ⟨hkept.state, by rw [hkept.endCode, if_pos hs]; rfl, by rw [hkept.faultDetail, if_pos hs]; rfl⟩
  · next hs =>
    have hkept := plan_endPlan (code := .faulted) (detail := .lineDisabled) hover
    exact ⟨hkept.state, by rw [hkept.endCode, if_neg hs]; rfl, by rw [hkept.faultDetail, if_neg hs]; rfl⟩

theorem planKept_disablePlans {ps : List Slot} {j : Slot} (hj : j ∉ ps) (s : State) :
    PlanKept (s.plan j) ((ps.foldl (fun t i => disablePlan i t) s).plan j) := by
  induction ps generalizing s with
  | nil => exact .refl _
  | cons i ps ih =>
    obtain ⟨hi, hps⟩ := not_or.mp (mt List.mem_cons.mpr hj)
    exact (planKept_disablePlan hi s).trans (ih hps _)

theorem plan_disablePlans {ps : List Slot} (hn : ps.Nodup) {j : Slot} (hj : j ∈ ps) (s : State)
    (h : (s.plan j).state.isLive = true) :
    DisabledPlan (s.plan j) ((ps.foldl (fun t i => disablePlan i t) s).plan j) := by
  induction ps generalizing s with
  | nil => cases hj
  | cons i ps ih =>
    obtain ⟨hi, hps⟩ := List.nodup_cons.mp hn
    by_cases hji : j = i
    · subst hji
      exact (plan_disablePlan h).of_kept (.refl _) (planKept_disablePlans hi _)
    · have hkept := planKept_disablePlan hji s
      have hrest := ih hps ((List.mem_cons.mp hj).resolve_left hji) (disablePlan i s) (by rw [hkept.state]; exact h)
      exact hrest.of_kept hkept (.refl _)

/-! ### The ending step (R136) -/

/-- R13: the plans that stand on a line, ended in a free order. -/
def plansEnded (l : Line) (s : State) : State :=
  s.inFreeOrder (allSlots.filter fun i => (s.plan i).isOnLine l) disablePlan

/-- R136: a line whose plans have ended, taken down. -/
def takenDown (l : Line) (s : State) : State :=
  let t := leaveWalk l s
  ((t.setSched l { t.sched l with holder := none, queue := [] }).setDriver l
    { (t.driver l).stopTimers with disable := .writingBack }).setLine l
      { t.lineCtl l with state := .disabled, guard := .stopped }

/-- Taking a line down leaves the plans, the backlog, the Fault Log and the part state. -/
theorem takenDown_frame (l : Line) (s : State) :
    (∀ i : Slot, (takenDown l s).plan i = s.plan i) ∧ (takenDown l s).backlog = s.backlog ∧
      (takenDown l s).log = s.log ∧ (takenDown l s).unit.partState = s.unit.partState :=
  ⟨fun _ => rfl, rfl, rfl, rfl⟩

theorem lineCtl_takenDown (l : Line) (s : State) (m : Line) :
    (takenDown l s).lineCtl m =
      if m = l then { s.lineCtl l with state := .disabled, guard := .stopped } else s.lineCtl m := get_upd _ _ _ _

theorem sched_takenDown (l : Line) (s : State) (m : Line) :
    (takenDown l s).sched m = if m = l then { s.sched l with holder := none, queue := [] } else s.sched m :=
  get_upd _ _ _ _

theorem driver_takenDown (l : Line) (s : State) (m : Line) :
    (takenDown l s).driver m =
      if m = l then { (s.driver l).stopTimers with disable := .writingBack } else s.driver m := get_upd _ _ _ _

theorem walk_takenDown (l : Line) (s : State) :
    (takenDown l s).walk l = { s.walk l with state := .noHolder, group := [], pause := .stopped } := get_upd_self _ _ _

theorem endingStep_eq (l : Line) (s : State) : endingStep l s = advanceDisable l (takenDown l (plansEnded l s)) := by
  unfold endingStep plansEnded
  dsimp only
  generalize s.inFreeOrder (allSlots.filter fun i => (s.plan i).isOnLine l) disablePlan = t
  rfl

theorem plansEnded_eq (l : Line) (s : State) :
    plansEnded l s =
      (freeOrder s.choices (allSlots.filter fun i => (s.plan i).isOnLine l)).1.foldl (fun t i => disablePlan i t)
        (s.setChoices (freeOrder s.choices (allSlots.filter fun i => (s.plan i).isOnLine l)).2) := by
  unfold plansEnded State.inFreeOrder
  rfl

theorem plansEnded_moves (l : Line) (s : State) : Moves [.plan, .count, .port, .choice] s (plansEnded l s) :=
  inFreeOrder_moves s _ disablePlan rfl fun t i _ => Moves.refl.via (disablePlan_moves i t)

/-- R13: the plans on the line end. -/
theorem plan_plansEnded {i : Slot} (hl : (s.plan i).line = l) (h : (s.plan i).state.isLive = true) :
    DisabledPlan (s.plan i) ((plansEnded l s).plan i) := by
  have hperm := freeOrder_perm (allSlots.filter fun i => (s.plan i).isOnLine l) s.choices
  rw [plansEnded_eq]
  refine plan_disablePlans (hperm.nodup_iff.mpr ((List.nodup_finRange 32).filter _))
    (hperm.mem_iff.mpr (List.mem_filter.mpr ⟨List.mem_finRange i, ?_⟩))
    (s.setChoices (freeOrder s.choices (allSlots.filter fun i => (s.plan i).isOnLine l)).2) h
  rw [isOnLine_eq, hl, h, decide_eq_true rfl, Bool.and_self]

/-- R13: every other plan stays. -/
theorem planKept_plansEnded {i : Slot} (h : (s.plan i).line ≠ l ∨ (s.plan i).state.isLive = false) :
    PlanKept (s.plan i) ((plansEnded l s).plan i) := by
  have hperm := freeOrder_perm (allSlots.filter fun i => (s.plan i).isOnLine l) s.choices
  rw [plansEnded_eq]
  refine planKept_disablePlans (fun hm => ?_)
    (s.setChoices (freeOrder s.choices (allSlots.filter fun i => (s.plan i).isOnLine l)).2)
  have hon := (List.mem_filter.mp (hperm.mem_iff.mp hm)).2
  rw [isOnLine_eq, Bool.and_eq_true, decide_eq_true_eq] at hon
  obtain ⟨hline, hlive⟩ := hon
  rcases h with h | h
  · exact h hline
  · rw [h] at hlive
    cases hlive

/-- R137: the write of the epochs may follow in the same step; of the drivers only this line's has gone on. -/
theorem driver_advanceDisable (l : Line) (s : State) :
    (∀ m : Line, m ≠ l → (advanceDisable l s).driver m = s.driver m) ∧
      ((advanceDisable l s).driver l = s.driver l ∨
        (advanceDisable l s).driver l = { s.driver l with disable := .writingEpochs }) := by
  unfold advanceDisable
  split
  · exact ⟨fun _ _ => rfl, .inl rfl⟩
  · have hm : Moves contextKinds s
        (serveFreed (s.flushable l) ((s.flushable l).foldl (fun t n => giveUpWay n t) s)) :=
      (Moves.refl.via (giveUpWays_moves _ s)).trans (serveFreed_moves _ _)
    have hd (m : Line) : State.driver _ m = s.driver m := congrArg (·.get m) hm.drivers_eq
    dsimp only
    split
    · refine ⟨fun m hne => (get_upd_ne _ _ hne).trans (hd m), .inr ?_⟩
      rw [← hd l]
      exact get_upd_self _ _ _
    · exact ⟨fun m _ => hd m, .inl (hd l)⟩

/-- The cache's part of LINE_DISABLE leaves the lines, the Schedulers, the backlog, the Fault Log and the part state. -/
theorem advanceDisable_frame (l : Line) (s : State) :
    (∀ m : Line, (advanceDisable l s).lineCtl m = s.lineCtl m) ∧ (∀ m : Line, (advanceDisable l s).sched m = s.sched m) ∧
      (advanceDisable l s).backlog = s.backlog ∧ (advanceDisable l s).log = s.log ∧
      (advanceDisable l s).unit.partState = s.unit.partState := by
  have h := advanceDisable_moves l s
  exact ⟨fun m => congrArg (·.get m) h.lines_eq, fun m => congrArg (·.get m) h.scheds_eq, h.backlog_eq, h.log_eq,
    h.partState_eq⟩

/-- Ending the plans of a line leaves the lines, the Schedulers, the drivers, the backlog, the Fault Log and the part state. -/
theorem plansEnded_frame (l : Line) (s : State) :
    (∀ m : Line, (plansEnded l s).lineCtl m = s.lineCtl m) ∧ (∀ m : Line, (plansEnded l s).sched m = s.sched m) ∧
      (∀ m : Line, (plansEnded l s).driver m = s.driver m) ∧ (plansEnded l s).backlog = s.backlog ∧
      (plansEnded l s).log = s.log ∧ (plansEnded l s).unit.partState = s.unit.partState := by
  have h := plansEnded_moves l s
  exact ⟨fun m => congrArg (·.get m) h.lines_eq, fun m => congrArg (·.get m) h.scheds_eq,
    fun m => congrArg (·.get m) h.drivers_eq, h.backlog_eq, h.log_eq, h.partState_eq⟩

/-- R136: the line is DISABLED after its ending step; no other line changes. -/
theorem lineCtl_endingStep (l : Line) (s : State) :
    ((endingStep l s).lineCtl l).state = .disabled ∧ ∀ m : Line, m ≠ l → (endingStep l s).lineCtl m = s.lineCtl m := by
  obtain ⟨hadv, -⟩ := advanceDisable_frame l (takenDown l (plansEnded l s))
  obtain ⟨hend, -⟩ := plansEnded_frame l s
  rw [endingStep_eq]
  refine ⟨?_, fun m hm => ?_⟩
  · rw [hadv, lineCtl_takenDown, if_pos rfl]
  · rw [hadv, lineCtl_takenDown, if_neg hm, hend]

/-- R136: the line has no holder and an empty run queue; no other Scheduler changes. -/
theorem sched_endingStep (l : Line) (s : State) :
    ((endingStep l s).sched l).holder = none ∧ ((endingStep l s).sched l).queue = [] ∧
      ∀ m : Line, m ≠ l → (endingStep l s).sched m = s.sched m := by
  obtain ⟨-, hadv, -⟩ := advanceDisable_frame l (takenDown l (plansEnded l s))
  obtain ⟨-, hend, -⟩ := plansEnded_frame l s
  rw [endingStep_eq]
  refine ⟨?_, ?_, fun m hm => ?_⟩
  · rw [hadv, sched_takenDown, if_pos rfl]
  · rw [hadv, sched_takenDown, if_pos rfl]
  · rw [hadv, sched_takenDown, if_neg hm, hend]

/-- R136: the timers of the Driver Monitor are stopped, and LINE_DISABLE is in its write-backs or past them. -/
theorem driver_endingStep (l : Line) (s : State) :
    (((endingStep l s).driver l).settleTimer = .stopped ∧ ((endingStep l s).driver l).windowTimer = .stopped ∧
      ((endingStep l s).driver l).drainTimer = .stopped) ∧
      (((endingStep l s).driver l).disable = .writingBack ∨ ((endingStep l s).driver l).disable = .writingEpochs) ∧
      ∀ m : Line, m ≠ l → (endingStep l s).driver m = s.driver m := by
  obtain ⟨hother, hself⟩ := driver_advanceDisable l (takenDown l (plansEnded l s))
  obtain ⟨-, -, hend, -⟩ := plansEnded_frame l s
  rw [driver_takenDown, if_pos rfl] at hself
  rw [endingStep_eq]
  refine ⟨?_, ?_, fun m hm => ?_⟩
  · rcases hself with h | h <;> (rw [h]; exact ⟨rfl, rfl, rfl⟩)
  · rcases hself with h | h <;> simp [h]
  · rw [hother m hm, driver_takenDown, if_neg hm, hend]

/-- R44, R136: the line's walk has no holder. -/
theorem walk_endingStep (l : Line) (s : State) : ((endingStep l s).walk l).state = .noHolder := by
  have hkept := (advanceDisable_moves l (takenDown l (plansEnded l s))).walkKept l
  rw [endingStep_eq, hkept, walk_takenDown]

/-- The plans after the ending step are those that have ended, but for their counts. -/
theorem planKept_plansEnded_endingStep (l : Line) (s : State) (i : Slot) :
    PlanKept ((plansEnded l s).plan i) ((endingStep l s).plan i) := by
  have hkept := (advanceDisable_moves l (takenDown l (plansEnded l s))).planKept i
  rw [endingStep_eq]
  rwa [(takenDown_frame l (plansEnded l s)).1 i] at hkept

/-- R13: the plans on the line have ended. -/
theorem plan_endingStep {i : Slot} (hl : (s.plan i).line = l) (h : (s.plan i).state.isLive = true) :
    DisabledPlan (s.plan i) ((endingStep l s).plan i) :=
  (plan_plansEnded hl h).of_kept (.refl _) (planKept_plansEnded_endingStep l s i)

/-- R13: every other plan keeps its state and its end. -/
theorem planKept_endingStep {i : Slot} (h : (s.plan i).line ≠ l ∨ (s.plan i).state.isLive = false) :
    PlanKept (s.plan i) ((endingStep l s).plan i) :=
  (planKept_plansEnded h).trans (planKept_plansEnded_endingStep l s i)

/-- R136: the ending step leaves the backlog, the Fault Log and the part state. -/
theorem endingStep_frame (l : Line) (s : State) :
    (endingStep l s).backlog = s.backlog ∧ (endingStep l s).log = s.log ∧
      (endingStep l s).unit.partState = s.unit.partState := by
  obtain ⟨-, -, hb, hg, hu⟩ := advanceDisable_frame l (takenDown l (plansEnded l s))
  obtain ⟨-, hb', hg', hu'⟩ := takenDown_frame l (plansEnded l s)
  obtain ⟨-, -, -, hb'', hg'', hu''⟩ := plansEnded_frame l s
  rw [endingStep_eq]
  exact ⟨hb.trans (hb'.trans hb''), hg.trans (hg'.trans hg''), hu.trans (hu'.trans hu'')⟩

/-! ### The command (R136) -/

theorem exec_lineDisable {k : Agent} (h : s.Accepts k lineDisableCode) :
    exec (.lineDisable k l) s = .next (disableLine k l (s.taken k (wordOf lineDisableCode l 0 0))) :=
  congrArg Host.Outcome.next (takeWord_accepted _ h (show lineDisableCode ≠ resetCode by decide))

theorem disableLine_wrongState {k : Agent} (h : (s.lineCtl l).state = .disabled) :
    disableLine k l s = postVerdict k .wrongState 0 s := if_pos h

theorem disableLine_waits {k : Agent} (h : (s.lineCtl l).state ≠ .disabled) (hw : (s.walk l).state = .exchanging) :
    disableLine k l s =
      (postPending k s).setDriver l { s.driver l with disable := .waitingExchange } :=
  (if_neg h).trans (if_pos hw)

theorem disableLine_ends {k : Agent} (h : (s.lineCtl l).state ≠ .disabled) (hw : (s.walk l).state ≠ .exchanging) :
    disableLine k l s = endingStep l (postPending k s) := (if_neg h).trans (if_neg hw)

/-- Settles O30: the ending step is the plans ended, the line taken down and the part the cache has in it, each with its frame. -/
theorem lineDisableEndsPlans : Obligations.LineDisableEndsPlans := by
  unfold Obligations.LineDisableEndsPlans
  intro ended
  have hended : ∀ (s : State) (l : Line), ended l s (endingStep l s) := by
    intro s l
    obtain ⟨hline, hlines⟩ := lineCtl_endingStep l s
    obtain ⟨hholder, hqueue, hscheds⟩ := sched_endingStep l s
    obtain ⟨⟨hsettle, hwindow, hdrain⟩, hdisable, hdrivers⟩ := driver_endingStep l s
    have hfloats : (endingStep l s).driverLevel l = .floats := by
      unfold State.driverLevel
      rw [hline]
    refine ⟨hline, hfloats, hholder, hqueue, walk_endingStep l s, hsettle, hwindow, hdrain, hdisable,
      fun i hl h => ?_, fun i h => ?_, fun m hm => ⟨hlines m hm, hscheds m hm, hdrivers m hm⟩, endingStep_frame l s⟩
    · have hplan := plan_endingStep hl h
      exact ⟨hplan.state, hplan.endCode, hplan.faultDetail⟩
    · have hplan := planKept_endingStep h
      exact ⟨hplan.state, hplan.endCode⟩
  refine ⟨?_, hended⟩
  intro s l h w
  refine ⟨fun hd => ?_, fun hd hw => ?_, fun hd hw => ⟨endingStep l (s.inProgress 0 w), ?_, hended _ l, rfl⟩⟩
  · rw [exec_lineDisable h, disableLine_wrongState (s := s.taken 0 w) hd, postVerdict_taken]
    rfl
  · rw [exec_lineDisable h, disableLine_waits (s := s.taken 0 w) hd hw, postPending_taken]
    rfl
  · rw [exec_lineDisable h, disableLine_ends (s := s.taken 0 w) hd hw, postPending_taken]

end Sys2Proof.Machine
end

section
/-! HALT of a holder (R15, R16, R82, R83, R100), and giving its exchange up (R82, R83, R115). -/

namespace Sys2Proof.Machine

variable {s : State} {l : Line}

/-! ### What follows when the line has no exchange any more (R52, R136) -/

theorem afterExchange_selects (h : (s.driver l).disable ≠ .waitingExchange) : afterExchange l s = select l s := if_neg h

theorem afterExchange_ends (h : (s.driver l).disable = .waitingExchange) : afterExchange l s = endingStep l s := if_pos h

@[simp] theorem driver_endHolder (l : Line) (code : EndCode) (detail : FaultDetail) (s : State) (m : Line) :
    (endHolder l code detail s).driver m = s.driver m := congrArg (·.get m) (endHolder_moves l code detail s).drivers_eq

@[simp] theorem driver_giveUpExchange (l : Line) (o : ExchangeOutcome) (s : State) (m : Line) :
    (giveUpExchange l o s).driver m = s.driver m := congrArg (·.get m) (giveUpExchange_moves l o s).drivers_eq

/-- R15, R136: after the holder has ended, the line selects, or the LINE_DISABLE that waits takes its ending step. -/
theorem afterExchange_endHolder (l : Line) (code : EndCode) (detail : FaultDetail) (s : State) :
    ((s.driver l).disable ≠ .waitingExchange →
      afterExchange l (endHolder l code detail s) = select l (endHolder l code detail s)) ∧
    ((s.driver l).disable = .waitingExchange →
      afterExchange l (endHolder l code detail s) = endingStep l (endHolder l code detail s)) := by
  rw [← driver_endHolder l code detail s l]
  exact ⟨afterExchange_selects, afterExchange_ends⟩

/-- R82, R83: the end of an exchange given up, and of its plan. -/
theorem afterExchange_givenUp (l : Line) (o : ExchangeOutcome) (s : State) :
    let u := endHolder l .halted .none (giveUpExchange l o s)
    ((s.driver l).disable ≠ .waitingExchange → afterExchange l u = select l u) ∧
    ((s.driver l).disable = .waitingExchange → afterExchange l u = endingStep l u) := by
  intro u
  rw [← driver_giveUpExchange l o s l]
  exact afterExchange_endHolder l .halted .none (giveUpExchange l o s)

/-! ### HALT by phase (R15, R16) -/

theorem haltNow_idle (h : (s.walk l).state ≠ .exchanging) :
    haltNow l s = afterExchange l (endHolder l .halted .none s) := by
  unfold haltNow
  rw [if_neg h]

theorem haltNow_exchanging (h : (s.walk l).state = .exchanging) :
    haltNow l s = afterExchange l (endHolder l .halted .none (giveUpExchange l .abandoned s)) := by
  unfold haltNow
  rw [if_pos h]

variable {i : Slot}

theorem haltActive_onLine (hw : (s.walk (s.plan i).line).state = .exchanging)
    (hp : (s.exch (s.plan i).line).phase = .onLine) :
    haltActive i s = abandonAttempt (s.plan i).line (s.setPlan i { s.plan i with state := .halting }) :=
  if_pos ⟨hw, hp⟩

theorem haltActive_resolving (hw : (s.walk (s.plan i).line).state = .exchanging)
    (hp : (s.exch (s.plan i).line).phase = .resolving) :
    haltActive i s = s.setPlan i { s.plan i with state := .halting } := by
  refine (if_neg fun hc => ?_).trans (if_pos ⟨hw, hp⟩)
  rw [hp] at hc
  exact nomatch hc.2

theorem haltActive_now (h : (s.walk (s.plan i).line).state = .exchanging →
    (s.exch (s.plan i).line).phase ≠ .onLine ∧ (s.exch (s.plan i).line).phase ≠ .resolving) :
    haltActive i s = haltNow (s.plan i).line s :=
  (if_neg fun hc => (h hc.1).1 hc.2).trans (if_neg fun hc => (h hc.1).2 hc.2)

/-- R83: the record of an exchange whose attempt is to be abandoned. -/
abbrev State.askAbandon (s : State) (l : Line) : State := s.setExch l { s.exch l with abandon := true, storing := false }

/-- R100: what the request to abandon the attempt does, by the state of the line. -/
theorem abandonAttempt_cases (l : Line) (s : State) :
    ((s.lineCtl l).state ∈ [.waking, .sending, .aborting] → abandonAttempt l s = s.askAbandon l) ∧
    ((s.lineCtl l).state = .awaiting →
      abandonAttempt l s = concludeAbandon l (enterSettling l (s.askAbandon l))) ∧
    ((s.lineCtl l).state = .receiving →
      abandonAttempt l s = concludeAbandon l (enterSettling l (emptyFifo l (s.askAbandon l)))) ∧
    ((s.lineCtl l).state ∉ [.waking, .sending, .aborting, .awaiting, .receiving] →
      abandonAttempt l s = concludeAbandon l (emptyFifo l (s.askAbandon l))) := by
  unfold abandonAttempt
  rw [State.modExch_eq]
  simp only [State.lineCtl_setExch]
  cases (s.lineCtl l).state <;> simp

/-! ### Giving an exchange up (R82, R83) -/

/-- R82: the lookup withdrawn, block by block. -/
theorem withdrawLookup_eq (l : Line) (s : State) :
    let i := setOf (s.exchKey l)
    withdrawLookup l s =
      (s.setCache { s.cache with
        stalls := upd s.cache.stalls i ((s.cache.stalls.get i).filter fun x => decide (x ≠ l)),
        handWaits := upd s.cache.handWaits i ((s.cache.handWaits.get i).filter fun x => decide (x ≠ l)) }).setExch l
          { s.exch l with lookup := .none } := rfl

/-- The entry held goes by the ways, the station and the flag that it is held. -/
theorem heldWay_congr {t : State} (hw : t.cache.ways = s.cache.ways) (hs : (t.exch l).station = (s.exch l).station)
    (hh : (t.exch l).entryHeld = (s.exch l).entryHeld) : t.heldWay l = s.heldWay l := by
  have hway (n : Fin 64) : t.way n = s.way n := congrArg (·.get n) hw
  have hkey : t.exchKey l = s.exchKey l := congrArg (Key.mk l) hs
  have hfind : t.findWay .valid (t.exchKey l) = s.findWay .valid (s.exchKey l) := by
    unfold State.findWay
    simp only [hkey, hway]
  unfold State.heldWay
  rw [hh, hfind]

theorem heldWay_withdrawLookup (l : Line) (s : State) (o : Option ExchangeOutcome) :
    ((withdrawLookup l s).setExch l { (withdrawLookup l s).exch l with outcome := o }).heldWay l = s.heldWay l := by
  refine heldWay_congr rfl ?_ ?_ <;> rw [State.exch_setExch_self, withdrawLookup_eq, State.exch_setExch_self]

theorem resultsOfGivenUp_none (o : ExchangeOutcome) (h : (s.exch l).attempts = 0) : resultsOfGivenUp l o s = s :=
  if_pos h

theorem markEntry_none {f : StationRecord → StationRecord} (h : s.heldWay l = none) : markEntry l f s = s := by
  unfold markEntry
  rw [h]

theorem markEntry_held {f : StationRecord → StationRecord} {n : Fin 64} (h : s.heldWay l = some n) :
    markEntry l f s = s.setWay n { s.way n with copy := f (s.way n).copy, dirty := true } := by
  unfold markEntry
  rw [h]
  rfl

/-- R38, R82: the results of an exchange given up after an attempt had begun; the toggle of the entry held becomes unknown once
a frame had begun. -/
theorem resultsOfGivenUp_some (o : ExchangeOutcome) (h : (s.exch l).attempts ≠ 0) :
    let g := s.setExch l { s.exch l with outcome := some o }
    ((s.exch l).frameBegun = false ∨ g.heldWay l = none →
      resultsOfGivenUp l o s = finishGroup l (queueResults l o g)) ∧
    (∀ n : Fin 64, (s.exch l).frameBegun = true → g.heldWay l = some n →
      resultsOfGivenUp l o s = finishGroup l (queueResults l o
        (g.setWay n { g.way n with copy := { (g.way n).copy with toggleKnown := false }, dirty := true }))) := by
  intro g
  have hresults : resultsOfGivenUp l o s = finishGroup l (queueResults l o
      (if (s.exch l).frameBegun then markEntry l StationRecord.forgetToggle g else g)) := if_neg h
  rw [hresults]
  refine ⟨fun hm => ?_, fun n hf hn => ?_⟩
  · rcases hm with hf | hn
    · rw [hf]
      rfl
    · rw [markEntry_none hn, ite_self]
  · rw [hf, if_pos rfl, markEntry_held hn]
    rfl

/-! ### The pin (R115, R116) and the group (R41, R43) -/

theorem serveStall_nil {n : SetIndex} (h : s.cache.stalls.get n = []) : serveStall n s = s := by
  unfold serveStall
  rw [h]

theorem serveStall_cons {n : SetIndex} {m : Line} {rest : List Line} (h : s.cache.stalls.get n = m :: rest) :
    serveStall n s = lookup m (s.setCache { s.cache with stalls := upd s.cache.stalls n rest }) := by
  unfold serveStall
  rw [h]

theorem releasePin_none (h : s.heldWay l = none) :
    releasePin l s = s.setExch l { s.exch l with entryHeld := false } := by
  unfold releasePin
  rw [h]
  rfl

theorem releasePin_held {n : Fin 64} (h : s.heldWay l = some n) :
    releasePin l s = serveStall (setOfWay n)
      ((s.setExch l { s.exch l with entryHeld := false }).setWay n { s.way n with pinned := false }) := by
  unfold releasePin
  rw [h]
  rfl

theorem finishGroup_eq (l : Line) (s : State) :
    let w := s.walk l
    let p := s.plan w.holder
    let n := p.completed + w.group.length
    (w.copy.note = false → finishGroup l s = s.setPlan w.holder { p with completed := n }) ∧
    (w.copy.note = true →
      finishGroup l s = s.setPlan w.holder { p with completed := n, notePosition := n, progressOwed := true }) := by
  intro w p n
  refine ⟨fun h => if_neg (by rw [h]; nofun), fun h => (if_pos h).trans ?_⟩
  have hnote (q : Plan) : takeNote w.holder (s.setPlan w.holder q) =
      s.setPlan w.holder { q with notePosition := q.completed, progressOwed := true } := by
    unfold takeNote
    rw [State.modPlan_eq, State.plan_setPlan_self, State.setPlan_setPlan]
  exact hnote _

/-! ### The obligation -/

/-- HALT of an ACTIVE plan, once taken. -/
theorem exec_halt_active {k : Agent} (h : s.Accepts k haltCode) (hs : (s.plan i).state = .active)
    (hk : k = (s.plan i).agent ∨ k = 0) :
    exec (.halt k i) s = .next (haltActive i (s.posted k haltCode .done 0)) := by
  obtain ⟨-, -, hactive, -⟩ := haltPlan_permitted (s.taken k (wordOf haltCode 0 (slotObject i) 0)) k i hk
  rw [exec_halt h, hactive hs, postVerdict_taken]
  rfl

/-- Settles O14: HALT by the phase of the exchange, what giving an exchange up writes, the group and the pin. -/
theorem haltOfHolder : Obligations.HaltOfHolder := by
  refine ⟨?_, fun s l => afterExchange_givenUp l .abandoned s, fun s l o => ?_, fun s l => ?_⟩
  · intro s k i h hs hk l t halting asked ends
    rw [exec_halt_active h hs hk]
    refine ⟨fun hw => ?_, fun hw hp => ?_, fun hw hp => ?_, fun hw hp hr => ?_⟩
    · obtain ⟨hselect, hending⟩ := afterExchange_endHolder l .halted .none t
      rw [haltActive_now (s := t) fun hc => absurd hc hw, haltNow_idle (s := t) (l := (t.plan i).line) hw]
      exact ⟨fun hd => congrArg _ (hselect hd), fun hd => congrArg _ (hending hd)⟩
    · obtain ⟨hsent, hawaiting, hreceiving, hother⟩ := abandonAttempt_cases l halting
      rw [haltActive_onLine (s := t) hw hp]
      exact ⟨fun hl => congrArg _ (hsent hl), fun hl => congrArg _ (hawaiting hl), fun hl => congrArg _ (hreceiving hl),
        fun hl => congrArg _ (hother hl)⟩
    · exact congrArg _ (haltActive_resolving (s := t) hw hp)
    · obtain ⟨hselect, hending⟩ := afterExchange_givenUp l .abandoned t
      rw [haltActive_now (s := t) fun _ => ⟨hp, hr⟩, haltNow_exchanging (s := t) (l := (t.plan i).line) hw]
      exact ⟨fun hd => congrArg _ (hselect hd), fun hd => congrArg _ (hending hd)⟩
  · intro e key others out idle given ends
    have hw : withdrawLookup l s = out.setExch l { e with lookup := .none } := rfl
    have hgive : giveUpExchange l o s = idle (releasePin l (resultsOfGivenUp l o (withdrawLookup l s))) := rfl
    have hattempts : ((withdrawLookup l s).exch l).attempts = e.attempts := by rw [hw, State.exch_setExch_self]
    have hframe : ((withdrawLookup l s).exch l).frameBegun = e.frameBegun := by rw [hw, State.exch_setExch_self]
    have hgiven : (withdrawLookup l s).setExch l { (withdrawLookup l s).exch l with outcome := some o } = given := by
      rw [hw, State.exch_setExch_self, State.setExch_setExch]
    have hheld : given.heldWay l = s.heldWay l := by
      rw [← hgiven]
      exact heldWay_withdrawLookup l s _
    refine ⟨fun h0 => ?_, fun h0 hm => ?_, fun n h0 hf hn => ?_⟩
    · rw [hgive, resultsOfGivenUp_none o (hattempts.trans h0), hw]
    · obtain ⟨hplain, -⟩ := resultsOfGivenUp_some (s := withdrawLookup l s) o (fun hc => h0 (hattempts.symm.trans hc))
      rw [hgiven, hframe, hheld] at hplain
      rw [hgive, hplain hm]
    · obtain ⟨-, hmarked⟩ := resultsOfGivenUp_some (s := withdrawLookup l s) o (fun hc => h0 (hattempts.symm.trans hc))
      rw [hgiven, hframe, hheld] at hmarked
      rw [hgive, hmarked n hf hn]
      rfl
  · intro w p n t
    obtain ⟨hquiet, hnote⟩ := finishGroup_eq l s
    refine ⟨hquiet, hnote, releasePin_none, fun i hi => ⟨fun hnil => ?_, fun m rest hcons => ?_⟩⟩
    · exact (releasePin_held hi).trans (serveStall_nil hnil)
    · exact (releasePin_held hi).trans (serveStall_cons hcons)

end Sys2Proof.Machine
end

section
/-! Boundaries (R42, R55 to R57): what the holder does there; the expiries of the Engine's own timers (R36, R42, R74). -/

namespace Sys2Proof.Machine

variable {s : State} {l : Line} {i : Slot}

/-! ### Boundaries (R42, R55, R56) -/

/-- R57: a report that finds the line without a boundary or without a holder is discarded. -/
theorem decideBoundary_noReport (h : (s.walk l).state ≠ .atBoundary ∨ (s.sched l).holder = none) :
    decideBoundary l s = s := by
  unfold decideBoundary
  split
  · next j hw hj =>
      rcases h with h | h
      · exact absurd hw h
      · simp [hj] at h
  · rfl

/-- R57: a report whose holder is not ACTIVE is discarded. -/
theorem decideBoundary_notActive (hw : (s.walk l).state = .atBoundary) (hh : (s.sched l).holder = some i)
    (ha : (s.plan i).state ≠ .active) : decideBoundary l s = s := by
  unfold decideBoundary
  rw [hw, hh]
  exact if_pos ha

/-- R55, R56: an ACTIVE holder yields to the entry it finds. -/
theorem decideBoundary_yields {e : QueueEntry} (hw : (s.walk l).state = .atBoundary) (hh : (s.sched l).holder = some i)
    (ha : (s.plan i).state = .active) (hy : s.yieldsTo l i = some e) :
    decideBoundary l s = select l (yieldTo l i e.slot s) := by
  unfold decideBoundary
  rw [hw, hh]
  refine (if_neg (not_not_intro ha)).trans ?_
  rw [hy]

/-- R55: an ACTIVE holder that finds no entry to yield to goes on. -/
theorem decideBoundary_goesOn (hw : (s.walk l).state = .atBoundary) (hh : (s.sched l).holder = some i)
    (ha : (s.plan i).state = .active) (hy : s.yieldsTo l i = none) : decideBoundary l s = select l (fetch l s) := by
  unfold decideBoundary
  rw [hw, hh]
  refine (if_neg (not_not_intro ha)).trans ?_
  rw [hy]

/-- R55: the entry to which the holder yields. -/
theorem yieldsTo_eq_some_iff {e : QueueEntry} :
    s.yieldsTo l i = some e ↔
      (s.walk l).boundaryHold = false ∧ s.firstEligible l = some e ∧ (s.plan i).effClass < (s.plan e.slot).effClass := by
  unfold State.yieldsTo
  cases (s.walk l).boundaryHold with
  | true => simp
  | false =>
    cases s.firstEligible l with
    | none => simp
    | some x =>
      by_cases hc : (s.plan i).effClass < (s.plan x.slot).effClass
      · simp only [hc, if_true, Option.some.injEq, Bool.false_eq_true, if_false, true_and]
        exact ⟨fun he => ⟨he, he ▸ hc⟩, And.left⟩
      · simp only [hc, if_false, Option.some.injEq, Bool.false_eq_true, reduceCtorEq, true_and, false_iff]
        rintro ⟨rfl, hlt⟩
        exact hc hlt

/-- R55, R56: the holder goes on under a hold, without an eligible entry, and where the first one's class is not higher. -/
theorem yieldsTo_eq_none (h : (s.walk l).boundaryHold = true ∨ s.firstEligible l = none ∨
    ∃ e : QueueEntry, s.firstEligible l = some e ∧ (s.plan e.slot).effClass ≤ (s.plan i).effClass) :
    s.yieldsTo l i = none := by
  refine Option.eq_none_iff_forall_ne_some.mpr fun e he => ?_
  obtain ⟨hhold, hfirst, hclass⟩ := yieldsTo_eq_some_iff.mp he
  rcases h with h | h | ⟨e', he', hle⟩
  · simp [hhold] at h
  · simp [hfirst] at h
  · obtain rfl : e' = e := by simpa [he'] using hfirst
    omega

/-- Settles O25, by whether the report finds its holder and whether the holder yields. -/
theorem boundaryDecided : Obligations.BoundaryDecided := by
  refine fun s l i => ⟨fun hno hholder => ?_, fun hw hh ha => ⟨fun e hhold hfirst hclass => ?_, fun hstays => ?_⟩⟩
  · refine congrArg Host.Outcome.next ?_
    by_cases hw : (s.walk l).state = .atBoundary
    · cases hh : (s.sched l).holder with
      | none => exact decideBoundary_noReport (.inr hh)
      | some j =>
        obtain rfl := hholder j hh
        exact decideBoundary_notActive hw hh fun ha => hno ⟨hw, hh, ha⟩
    · exact decideBoundary_noReport (.inl hw)
  · refine congrArg Host.Outcome.next ?_
    exact decideBoundary_yields hw hh ha (yieldsTo_eq_some_iff.mpr ⟨hhold, hfirst, hclass⟩)
  · refine congrArg Host.Outcome.next ?_
    exact decideBoundary_goesOn hw hh ha (yieldsTo_eq_none hstays)

/-! ### Going on after a descriptor (R36, R41, R42) -/

/-- A plan and a walk changed twice, in turn. -/
theorem setPlan_setWalk_setPlan (s : State) (i : Slot) (l : Line) (p q : Plan) (w : Walk) :
    ((s.setPlan i p).setWalk l w).setPlan i q = (s.setPlan i q).setWalk l w :=
  congrArg (·.setWalk l w) (State.setPlan_setPlan s i p q)

/-- R41, R42: with CHAIN the walk passes a boundary on the way to the descriptor after the last one. -/
theorem goOn_chain (l : Line) (last : Word) (hold : Bool) (s : State) :
    let w := s.walk l
    goOn l last true hold s =
      pumpProgress w.holder ((s.setPlan w.holder { s.plan w.holder with currentAddr := last + 32 }).setWalk l { w with
        state := .atBoundary, nextAddr := last + 32, boundaryHold := hold, group := [] }) := by
  intro w
  refine (if_pos rfl).trans ?_
  simp only [passBoundary, State.slotOf, State.modPlan_eq, State.modWalk_eq, State.walk_setPlan, State.walk_setWalk_self,
    State.setWalk_setWalk]
  rfl

/-- R41: without CHAIN the run ends. -/
theorem goOn_last (l : Line) (last : Word) (hold : Bool) (s : State) :
    goOn l last false hold s =
      runEnd l (s.setPlan (s.walk l).holder { s.plan (s.walk l).holder with currentAddr := last }) := rfl

/-- R43: a note is taken of the plan context as it stands. -/
theorem takeNote_setPlan (i : Slot) (p : Plan) (s : State) :
    takeNote i (s.setPlan i p) = s.setPlan i { p with notePosition := p.completed, progressOwed := true } := by
  unfold takeNote
  rw [State.modPlan_eq, State.plan_setPlan_self, State.setPlan_setPlan]

/-! ### The pause timer (R36, R43) -/

/-- R36, R43: a plan whose PAUSE counts as completed, with its note where the PAUSE has one. -/
def Plan.pauseCounted (p : Plan) (note : Bool) : Plan :=
  if note then { p with completed := p.completed + 1, notePosition := p.completed + 1, progressOwed := true }
  else { p with completed := p.completed + 1 }

/-- R36: the end of a PAUSE counts it, takes its note, and goes on behind it. -/
theorem pauseEnds_eq (l : Line) (s : State) :
    let w := s.walk l
    pauseEnds l s = select l (goOn l w.nextAddr w.copy.chain w.copy.hold
      ((s.setPlan w.holder ((s.plan w.holder).pauseCounted w.copy.note)).setWalk l { w with pause := .stopped })) := by
  intro w
  have hcounted (t : State) (p : Plan) :
      (if w.copy.note then takeNote w.holder (t.setPlan w.holder { p with completed := p.completed + 1 })
        else t.setPlan w.holder { p with completed := p.completed + 1 }) =
      t.setPlan w.holder (p.pauseCounted w.copy.note) := by
    unfold Plan.pauseCounted
    cases w.copy.note
    · rfl
    · exact takeNote_setPlan _ _ _
  exact congrArg (fun t => select l (goOn l w.nextAddr w.copy.chain w.copy.hold t))
    (hcounted (s.setWalk l { w with pause := .stopped }) (s.plan w.holder))

theorem exec_pauseExpiry (hw : (s.walk l).state = .pausing) (hp : (s.walk l).pause.isRunning = true) :
    exec (.pauseExpiry l) s = .next (pauseEnds l s) := congrArg Host.Outcome.next (if_pos ⟨hw, hp⟩)

theorem exec_backoffExpiry (hp : (s.exch l).phase = .backoff) (hb : (s.exch l).backoff.isRunning = true) :
    exec (.backoffExpiry l) s = .next (s.setExch l { s.exch l with phase := .budgetWait, backoff := .stopped }) :=
  congrArg Host.Outcome.next (if_pos ⟨hp, hb⟩)

/-- Settles O48: the PAUSE by its CHAIN flag, and the backoff timer. -/
theorem engineTimersExpire : Obligations.EngineTimersExpire := by
  intro s l w i p q
  have hq : q = p.pauseCounted w.copy.note := rfl
  refine ⟨fun hw hp => ⟨fun hc => ?_, fun hc => ?_⟩, exec_backoffExpiry⟩
  · rw [exec_pauseExpiry hw hp, pauseEnds_eq, hq, hc, goOn_chain]
    simp only [State.walk_setWalk_self, State.plan_setWalk, State.plan_setPlan_self, setPlan_setWalk_setPlan,
      State.setWalk_setWalk]
    rfl
  · rw [exec_pauseExpiry hw hp, pauseEnds_eq, hq, hc, goOn_last]
    simp only [State.walk_setWalk_self, State.plan_setWalk, State.plan_setPlan_self, setPlan_setWalk_setPlan]
    rfl

end Sys2Proof.Machine
end

section
/-! Descriptors (R24 to R36): the fetch, its checks, what the walk does with one, and the beginning of an exchange (R32, R66 to
R68). -/

namespace Sys2Proof.Machine

variable {s : State} {l : Line} {d : Descriptor} {r : ReadRequest}

/-! ### The checks of a descriptor (R29, R30) -/

/-- R162: a range inside a window; a range of no bytes is not checked. -/
theorem contains_iff (w : Window) (a : Word) (n : Nat) :
    w.contains a n = true ↔ n = 0 ∨ (w.base.toNat ≤ a.toNat ∧ a.toNat + n ≤ w.limit.toNat) := by
  simp [Window.contains]

/-- R29: the rules of validity that a descriptor can break. -/
theorem isInvalid_iff (d : Descriptor) (member afterJump : Bool) :
    d.isInvalid member afterJump = true ↔
      d.kind = none ∨ (member = true ∧ d.kind ≠ some .continueReply) ∨ (d.kind = some .continueReply ∧ member = false) ∨
      (d.kind = some .jump ∧ afterJump = true) ∨
      ((d.kind = some .exchange ∨ d.kind = some .continueReply) ∧ d.join = true ∧ d.chain = false) ∨
      (d.kind = some .exchange ∧ (250 < d.station.toNat ∨ (d.station = 0 ∧ d.join = true))) ∨
      (d.kind = some .exchange ∧ 240 < d.requestLength) ∨
      ((d.kind = some .exchange ∨ d.kind = some .continueReply) ∧ 240 < d.capacity) ∨
      (d.kind = some .pause ∧ (d.duration = 0 ∨ 60000 < d.duration)) := by
  unfold Descriptor.isInvalid
  cases d.kind with
  | none => simp
  | some kind => cases kind <;> simp [or_assoc]

/-- R30: the ranges that a descriptor can name outside its window. -/
theorem isOutside_iff (d : Descriptor) (w : Window) :
    d.isOutside w = true ↔
      (d.kind = some .exchange ∧ ¬w.contains d.requestAddr d.requestLength = true) ∨
      (((d.kind = some .exchange ∧ d.station ≠ 0) ∨ d.kind = some .continueReply) ∧
        ¬w.contains d.replyAddr d.capacity = true) := by
  unfold Descriptor.isOutside
  cases d.kind with
  | none => simp
  | some kind => cases kind <;> simp

theorem descriptorFault_invalid (h : d.isInvalid (!(s.walk l).group.isEmpty) (s.walk l).afterJump = true) :
    s.descriptorFault l d = some .descriptorInvalid := if_pos h

theorem descriptorFault_outside (h : ¬d.isInvalid (!(s.walk l).group.isEmpty) (s.walk l).afterJump = true)
    (ho : d.isOutside (s.port.window (s.planOf l).agent) = true) : s.descriptorFault l d = some .window :=
  (if_neg h).trans (if_pos ho)

theorem descriptorFault_none (h : ¬d.isInvalid (!(s.walk l).group.isEmpty) (s.walk l).afterJump = true)
    (ho : ¬d.isOutside (s.port.window (s.planOf l).agent) = true) : s.descriptorFault l d = none :=
  (if_neg h).trans (if_neg ho)

/-! ### The fields of a descriptor (R24, Section 11.2) -/

theorem kindOf_eq_none {b : Byte} (h : b = 0 ∨ 4 < b.toNat) : kindOf b = none := by
  have hne (n : Byte) (hn : 0 < n.toNat) (hn' : n.toNat ≤ 4) : b ≠ n := by
    rintro rfl
    rcases h with rfl | h
    · exact absurd hn (by decide)
    · omega
  unfold kindOf
  rw [if_neg (hne 1 (by decide) (by decide)), if_neg (hne 2 (by decide) (by decide)),
    if_neg (hne 3 (by decide) (by decide)), if_neg (hne 4 (by decide) (by decide))]

/-! ### The fetch (R28) -/

/-- R28: the plan's current descriptor address becomes one that the walk reaches. -/
abbrev State.shown (s : State) (l : Line) (a : Word) : State :=
  s.setPlan (s.walk l).holder { s.plan (s.walk l).holder with currentAddr := a }

/-- R28: the address fetched is aligned, and its 32 bytes lie inside the window of the plan's agent. -/
abbrev State.canRead (s : State) (l : Line) : Prop :=
  (s.walk l).nextAddr.toNat % 32 = 0 ∧ (s.port.window (s.planOf l).agent).contains (s.walk l).nextAddr 32 = true

theorem fetch_of_fault {f : FaultDetail} (h : s.fetchFault l = some f) :
    fetch l s = stopWalk l f (s.shown l (s.walk l).nextAddr) := by
  unfold fetch
  rw [h]
  rfl

theorem fetch_stepLimit (h : 255 ≤ (s.walk l).steps) :
    fetch l s = stopWalk l .stepLimit (s.shown l (s.walk l).nextAddr) := fetch_of_fault (if_pos h)

theorem fetch_window (h : (s.walk l).steps < 255) (hr : ¬s.canRead l) :
    fetch l s = stopWalk l .window (s.shown l (s.walk l).nextAddr) := by
  refine fetch_of_fault ((if_neg (Nat.not_le.mpr h)).trans ?_)
  by_cases ha : (s.walk l).nextAddr.toNat % 32 = 0
  · refine (if_neg (not_not_intro ha)).trans (if_pos ?_)
    exact Bool.not_eq_true' _ ▸ Bool.eq_false_iff.mpr fun hc => hr ⟨ha, hc⟩
  · exact if_pos ha

theorem fetch_reads (h : (s.walk l).steps < 255) (hr : s.canRead l) :
    fetch l s = askRead
      { addr := (s.walk l).nextAddr, length := 32, agent := (s.planOf l).agent, requester := .engine l, op := .descriptor l,
        live := true }
      ((s.shown l (s.walk l).nextAddr).setWalk l
        { s.walk l with state := .fetching, steps := (s.walk l).steps + 1 }) := by
  have hnone : s.fetchFault l = none := by
    unfold State.fetchFault
    rw [if_neg (Nat.not_le.mpr h), if_neg (not_not_intro hr.1), if_neg (by simp [hr.2])]
  have hagent : ((s.shown l (s.walk l).nextAddr).planOf l).agent = (s.planOf l).agent := by
    simp only [State.planOf, State.slotOf, State.walk_setPlan, State.plan_setPlan_self]
  unfold fetch
  rw [hnone, ← hagent]
  rfl

/-! ### What the walk does with a descriptor (R32, R35, R36) -/

/-- R35: a JUMP counts as completed and passes a boundary on the way to its target. -/
theorem actJump_eq (l : Line) (d : Descriptor) (s : State) :
    let w := s.walk l
    let p := s.plan w.holder
    actJump l d s = (s.setPlan w.holder { p with currentAddr := d.target, completed := p.completed + 1 }).setWalk l
      { w with state := .atBoundary, nextAddr := d.target, afterJump := true, boundaryHold := d.hold, group := [] } := by
  intro w p
  unfold actJump passBoundary
  simp only [State.slotOf, State.modPlan_eq, State.modWalk_eq, State.walk_setPlan, State.walk_setWalk_self,
    State.setWalk_setWalk]
  rfl

/-- R32: JOIN asks for the next member. -/
theorem growGroup_open (h : d.join = true) :
    growGroup l d s = fetch l (s.setWalk l { s.walk l with nextAddr := (s.walk l).nextAddr + 32 }) := if_pos h

/-- R32: without JOIN the group is complete. -/
theorem growGroup_complete (h : d.join = false) : growGroup l d s = beginExchange l s := if_neg (by simp [h])

/-- R32: an EXCHANGE opens a group, which is complete without JOIN. -/
theorem actExchange_eq (l : Line) (d : Descriptor) (s : State) :
    let w : Walk := { s.walk l with copy := d, group := [memberOf (s.walk l).nextAddr d] }
    (d.join = false → actExchange l d s = beginExchange l (s.setWalk l w)) ∧
    (d.join = true → actExchange l d s = fetch l (s.setWalk l { w with nextAddr := w.nextAddr + 32 })) := by
  refine ⟨growGroup_complete, fun h => (growGroup_open h).trans ?_⟩
  rw [State.modWalk_eq, State.walk_setWalk_self, State.setWalk_setWalk]

/-- R32: a CONTINUE joins the group, which is then complete without JOIN. -/
theorem actContinue_eq (l : Line) (d : Descriptor) (s : State) :
    let w : Walk := { s.walk l with group := (s.walk l).group ++ [memberOf (s.walk l).nextAddr d] }
    (d.join = false → actContinue l d s = beginExchange l (s.setWalk l w)) ∧
    (d.join = true → actContinue l d s = fetch l (s.setWalk l { w with nextAddr := w.nextAddr + 32 })) := by
  refine ⟨growGroup_complete, fun h => (growGroup_open h).trans ?_⟩
  rw [State.modWalk_eq, State.walk_setWalk_self, State.setWalk_setWalk]

/-- R24: a valid descriptor of each kind. -/
theorem actOn_kind (l : Line) (d : Descriptor) (s : State) :
    (d.kind = some .exchange → actOn l d s = actExchange l d s) ∧
    (d.kind = some .continueReply → actOn l d s = actContinue l d s) ∧
    (d.kind = some .jump → actOn l d s = actJump l d s) ∧ (d.kind = some .pause → actOn l d s = actPause l d s) := by
  unfold actOn
  cases d.kind with
  | none => simp
  | some kind => cases kind <;> simp

/-! ### The beginning of an exchange (R32, R39, R66) -/

/-- R32, R39: the plan, the walk and the exchange as an exchange of a group begins. -/
abbrev State.begun (s : State) (l : Line) (a : Word) (e : Exchange) : State :=
  ((s.shown l a).setWalk l
    { s.walk l with state := .exchanging, afterJump := false, tally := 0, writeReject := false }).setExch l e

theorem headAddr_group {g : List Member} {m : Member} {rest : List Member} (hg : g = m :: rest) (a : Word) :
    (g.map (·.addr)).headD a = m.addr := by
  subst hg
  rfl

/-- R66: an exchange with a station begins with its lookup. -/
theorem beginExchange_station {m : Member} {rest : List Member} (hg : (s.walk l).group = m :: rest)
    (h : (s.walk l).copy.station ≠ 0) :
    beginExchange l s = lookup l
      (s.begun l m.addr { Exchange.reset with phase := .preparing, station := (s.walk l).copy.station }) := by
  refine (if_neg h).trans ?_
  rw [Exchange.begin, if_neg h, ← headAddr_group hg (s.plan (s.walk l).holder).currentAddr]
  rfl

/-- R67: a broadcast begins with its payload. -/
theorem beginExchange_broadcast {m : Member} {rest : List Member} (hg : (s.walk l).group = m :: rest)
    (h : (s.walk l).copy.station = 0) :
    beginExchange l s = fetchPayload l
      (s.begun l m.addr { Exchange.reset with phase := .preparing, station := 0, allowance := 1, fresh := true }) := by
  refine (if_pos h).trans ?_
  rw [Exchange.begin, if_pos h, ← headAddr_group hg (s.plan (s.walk l).holder).currentAddr]
  rfl

/-! ### Answers to the Engine's reads (R28 to R32, R68) -/

/-- R166: the answer to a descriptor read reaches its walk. -/
theorem exec_descriptorReadAnswer {a : ReadAnswer} (hr : s.Reading r) (ho : r.op = .descriptor l)
    (hl : a.hasLength r.length = true) :
    exec (.descriptorReadAnswer a) s = .next (descriptorAnswered l a s.afterRead) := by
  refine congrArg Host.Outcome.next ?_
  rw [answerRead_reading _ a hr (by rw [ho]; rfl) hl]
  unfold deliverRead
  rw [hr.2, ho]
  rfl

/-- R166: the answer to a payload read reaches its exchange. -/
theorem exec_payloadReadAnswer {a : ReadAnswer} (hr : s.Reading r) (ho : r.op = .payload l)
    (hl : a.hasLength r.length = true) :
    exec (.payloadReadAnswer a) s = .next (payloadAnswered l a s.afterRead) := by
  refine congrArg Host.Outcome.next ?_
  rw [answerRead_reading _ a hr (by rw [ho]; rfl) hl]
  unfold deliverRead
  rw [hr.2, ho]
  rfl

variable {data : List Byte}

theorem hasLength_accept (h : data.length = r.length) : (ReadAnswer.accept data).hasLength r.length = true := by
  simpa [ReadAnswer.hasLength] using h

/-- R28, R31: the read of the descriptor is rejected. -/
theorem descriptorAnswered_reject (h : (s.walk l).state = .fetching) :
    descriptorAnswered l .reject s = select l (stopWalk l .memoryReject s) := if_neg (not_not_intro h)

/-- R29 to R31: the descriptor is at fault. -/
theorem descriptorAnswered_fault {f : FaultDetail} (h : (s.walk l).state = .fetching)
    (hf : s.descriptorFault l (descriptorOf data) = some f) :
    descriptorAnswered l (.accept data) s = select l (stopWalk l f s) := by
  refine (if_neg (not_not_intro h)).trans ?_
  simp only [hf]

/-- R24: the descriptor is acted on. -/
theorem descriptorAnswered_acts (h : (s.walk l).state = .fetching)
    (hf : s.descriptorFault l (descriptorOf data) = none) :
    descriptorAnswered l (.accept data) s = select l (actOn l (descriptorOf data) s) := by
  refine (if_neg (not_not_intro h)).trans ?_
  simp only [hf]

theorem payloadAnswered_accept (h : (s.exch l).phase = .preparing) :
    payloadAnswered l (.accept data) s = s.setExch l { s.exch l with phase := .budgetWait, txBuffer := data } :=
  if_neg (not_not_intro h)

theorem payloadAnswered_reject (h : (s.exch l).phase = .preparing) :
    payloadAnswered l .reject s =
      afterExchange l (stopWalk l .memoryReject ((releasePin l s).modExch l Exchange.over)) := if_neg (not_not_intro h)

/-- Settles O47: a fetch by its checks, the answer by the fault and the kind of the descriptor, the exchange by its station. -/
theorem engineReadsAnswered : Obligations.EngineReadsAnswered := by
  refine ⟨fun s r l hr ho hw => ?_, fun s r l hr ho hp => ?_, fun data => ?_, fun s l d => ?_⟩
  · intro u w i
    refine ⟨?_, fun data hlen => ?_⟩
    · rw [exec_descriptorReadAnswer hr ho rfl, descriptorAnswered_reject (s := s.afterRead) hw]
    intro d member
    have hexec := exec_descriptorReadAnswer hr ho (hasLength_accept hlen)
    refine ⟨fun f hf => ?_, fun hf => ?_⟩
    · rw [hexec, descriptorAnswered_fault (s := s.afterRead) hw hf]
    obtain ⟨hexchange, hcontinue, hjump, hpause⟩ := actOn_kind l d u
    rw [hexec, descriptorAnswered_acts (s := s.afterRead) hw hf]
    refine ⟨fun hk => ?_, fun hk => ?_, fun hk => ?_, fun hk => ?_⟩
    · rw [hjump hk, actJump_eq]
      rfl
    · rw [hpause hk]
      rfl
    · intro t
      obtain ⟨hcomplete, hopen⟩ := actExchange_eq l d u
      rw [hexchange hk]
      exact ⟨fun hj => congrArg Host.Outcome.next (congrArg (select l) (hcomplete hj)),
        fun hj => congrArg Host.Outcome.next (congrArg (select l) (hopen hj))⟩
    · intro t
      obtain ⟨hcomplete, hopen⟩ := actContinue_eq l d u
      rw [hcontinue hk]
      exact ⟨fun hj => congrArg Host.Outcome.next (congrArg (select l) (hcomplete hj)),
        fun hj => congrArg Host.Outcome.next (congrArg (select l) (hopen hj))⟩
  · refine ⟨fun data hlen => ?_, ?_⟩
    · rw [exec_payloadReadAnswer hr ho (hasLength_accept hlen), payloadAnswered_accept (s := s.afterRead) hp]
      rfl
    · rw [exec_payloadReadAnswer hr ho rfl, payloadAnswered_reject (s := s.afterRead) hp]
  · intro d kind flag
    have hkind : d.kind = kindOf kind := rfl
    refine ⟨fun h => ?_, fun h => ?_, fun h => ?_, fun h => ?_, fun h => hkind.trans (kindOf_eq_none h), rfl, rfl, rfl, rfl,
      rfl, rfl, rfl, rfl, rfl, rfl, rfl, rfl, rfl, rfl, rfl⟩ <;> (rw [hkind, h]; rfl)
  · intro w p window inside isExchange isContinue isMember invalid outside shown reads
    have hinside (a : Word) (n : Nat) : window.contains a n = true ↔ inside a n := contains_iff window a n
    have hmember : ((!w.group.isEmpty) = true ↔ isMember) ∧ ((!w.group.isEmpty) = false ↔ ¬isMember) := by
      cases hg : w.group <;> simp [isMember, hg]
    have hinvalid : d.isInvalid (!w.group.isEmpty) w.afterJump = true ↔ invalid := by
      rw [isInvalid_iff, hmember.1, hmember.2]
    have houtside : d.isOutside window = true ↔ outside := by
      rw [isOutside_iff, hinside, hinside]
    have hreads : s.canRead l ↔ reads := and_congr_right fun _ => hinside _ _
    refine ⟨fun h => ?_, fun h ho => ?_, fun h ho => ?_, fetch_stepLimit, fun h hr => ?_, fun h hr => ?_, ?_⟩
    · exact descriptorFault_invalid (hinvalid.mpr h)
    · exact descriptorFault_outside (mt hinvalid.mp h) (houtside.mpr ho)
    · exact descriptorFault_none (mt hinvalid.mp h) (mt houtside.mp ho)
    · exact fetch_window h (mt hreads.mp hr)
    · exact fetch_reads h (hreads.mpr hr)
    · intro m rest hg begun
      exact ⟨beginExchange_station hg, beginExchange_broadcast hg⟩

end Sys2Proof.Machine
end

section
/-! The answers to reply data and result writes (R39, R44, R76), and the walk's decision after an exchange (R39 to R42). -/

namespace Sys2Proof.Machine

variable {s : State} {l : Line} {i : Slot} {a : WriteAnswer}

/-! ### The answer of an exchange (R39, R76) -/

/-- R39, R76: the walk with one answer less to come; a reject is kept. -/
def State.tallied (s : State) (l : Line) (a : WriteAnswer) : State :=
  s.setWalk l { s.walk l with
    tally := (s.walk l).tally - 1, writeReject := (s.walk l).writeReject || decide (a = .reject) }

theorem tallyAnswer_eq (l : Line) (a : WriteAnswer) (s : State) : tallyAnswer l (acceptedBy a) s = s.tallied l a := by
  cases a <;> rfl

@[simp] theorem tally_tallied (s : State) (l : Line) (a : WriteAnswer) :
    ((s.tallied l a).walk l).tally = (s.walk l).tally - 1 := by rw [State.tallied, State.walk_setWalk_self]

/-- R76: a reject ends storing; outside an attempt on the line nothing else follows. -/
theorem dropStoring_offLine (h : (s.exch l).phase ≠ .onLine ∨ (s.exch l).abandon = true) :
    dropStoring l s = s.setExch l { s.exch l with storing := false } := by
  unfold dropStoring
  simp only [State.modExch_eq, State.exch_setExch_self]
  refine if_neg fun hc => ?_
  rcases h with h | h
  · exact h hc.1
  · simp [h] at hc

/-- R76: a reject lets the characters that wait be taken while the attempt is on the line. -/
theorem dropStoring_onLine (hp : (s.exch l).phase = .onLine) (ha : (s.exch l).abandon = false) :
    let dropped := s.setExch l { s.exch l with storing := false }
    dropStoring l s = takeCharacters l (dropped.setPort (dropped.port.dropPayloadWait l)) := by
  unfold dropStoring
  simp only [State.modExch_eq, State.exch_setExch_self]
  exact if_pos ⟨hp, by simp [ha]⟩

/-- R39, R78: an exchange in RESOLVING whose tally does not reach 0 waits for the other answers. -/
theorem exchangeAnswered_waits (hp : (s.exch l).phase = .resolving) (ht : 1 < (s.walk l).tally) :
    exchangeAnswered l (acceptedBy a) s = s.tallied l a := by
  unfold exchangeAnswered
  rw [tallyAnswer_eq]
  exact (if_pos hp).trans (if_neg (by rw [tally_tallied]; omega))

theorem exchangeAnswered_ends (hp : (s.exch l).phase = .resolving) (ht : (s.walk l).tally ≤ 1) :
    exchangeAnswered l (acceptedBy a) s = exchangeEnds l (s.tallied l a) := by
  unfold exchangeAnswered
  rw [tallyAnswer_eq]
  exact (if_pos hp).trans (if_pos (by rw [tally_tallied]; omega))

theorem exchangeAnswered_accept (hp : (s.exch l).phase ≠ .resolving) (ha : a = .accept) :
    exchangeAnswered l (acceptedBy a) s = s.tallied l a := by
  subst ha
  exact (if_neg hp).trans (tallyAnswer_eq l .accept s)

theorem exchangeAnswered_reject (hp : (s.exch l).phase ≠ .resolving) (ha : a = .reject) :
    exchangeAnswered l (acceptedBy a) s = dropStoring l (s.tallied l a) := by
  subst ha
  exact (if_neg hp).trans (congrArg (dropStoring l) (tallyAnswer_eq l .reject s))

/-- R166: the answer to a reply data or a result write reaches its plan and its exchange. -/
theorem exec_exchangeWriteAnswer {e : WriteEntry} {live : Bool} (hw : s.Writing e) :
    (e.op = .replyData l i live → exec (.replyDataWriteAnswer a) s =
      .next (exchangeWriteAnswered l i live (acceptedBy a) s.afterWrite)) ∧
    (e.op = .result l i live → exec (.resultWriteAnswer a) s =
      .next (exchangeWriteAnswered l i live (acceptedBy a) s.afterWrite)) := by
  refine ⟨fun ho => congrArg Host.Outcome.next ?_, fun ho => congrArg Host.Outcome.next ?_⟩
  all_goals
    rw [answerWrite_writing _ a hw (by rw [ho]; rfl)]
    unfold deliverWrite
    rw [ho]

/-! ### The decision after an exchange (R39, R40) -/

/-- R77: a failure is neither OK nor SENT. -/
theorem isSuccess_eq_false_iff (o : ExchangeOutcome) : o.isSuccess = false ↔ o ≠ .ok ∧ o ≠ .sent := by
  cases o <;> simp [ExchangeOutcome.isSuccess]

theorem decideAfter_halting (h : (s.planOf l).state = .halting) : decideAfter l s = endHolder l .halted .none s :=
  if_pos h

theorem decideAfter_writeReject (h : (s.planOf l).state ≠ .halting) (hr : (s.walk l).writeReject = true) :
    decideAfter l s = stopWalk l .memoryReject s := (if_neg h).trans (if_pos hr)

variable {o : ExchangeOutcome}

/-- R40: a failure that the EXCHANGE does not tolerate stops the walk. -/
theorem decideAfter_failed (h : (s.planOf l).state ≠ .halting) (hr : (s.walk l).writeReject = false)
    (ho : (s.exch l).outcome = some o) (hf : o.isSuccess = false ∧ (s.walk l).copy.tolerate = false) :
    decideAfter l s = stopWalk l .exchangeFailed s := by
  refine (if_neg h).trans ((if_neg (by simp [hr])).trans (if_pos ?_))
  simp [ho, hf]

/-- R40, R41: otherwise the walk goes on behind the last member. -/
theorem decideAfter_goesOn {m : Member} (h : (s.planOf l).state ≠ .halting) (hr : (s.walk l).writeReject = false)
    (ho : (s.exch l).outcome = some o) (hf : ¬(o.isSuccess = false ∧ (s.walk l).copy.tolerate = false))
    (hm : (s.walk l).group.getLast? = some m) :
    decideAfter l s = goOn l m.addr m.chain (s.walk l).copy.hold s := by
  refine (if_neg h).trans ((if_neg (by simp [hr])).trans ((if_neg ?_).trans ?_))
  · simpa [ho] using hf
  · simp only [hm]

/-- Settles O49: the answer by the phase of its exchange, the decision by how the exchange ended, and the going on. -/
theorem exchangeWritesAnswered : Obligations.ExchangeWritesAnswered := by
  refine ⟨fun s e l i live a hw => ?_, fun s l o m ho hm => ?_, fun s l last hold => ?_⟩
  · intro u w x v t dropped ends
    have hnext {y z : State} (h : y = z) :
        (.next (pumpProgress i y) : Host.Outcome State Fault Refusal) = .next (pumpProgress i z) := by rw [h]
    have hexec {c : Instr} (hc : exec c s = .next (exchangeWriteAnswered l i live (acceptedBy a) u)) : ends c := by
      refine ⟨fun h => ?_, fun h => ?_⟩ <;> subst h
      · exact hc
      · have hlive : exec c s = .next (pumpProgress i (exchangeAnswered l (acceptedBy a) v)) := hc
        refine ⟨fun hp ht => ?_, fun hp ht => ?_, fun hp ha => ?_, fun hp ha hoff => ?_, fun hp hab ha => ?_⟩
        · exact hlive.trans (hnext (exchangeAnswered_waits (s := v) hp ht))
        · exact hlive.trans (hnext (exchangeAnswered_ends (s := v) hp ht))
        · exact hlive.trans (hnext (exchangeAnswered_accept (s := v) hp ha))
        · exact hlive.trans (hnext ((exchangeAnswered_reject (s := v) hp ha).trans (dropStoring_offLine (s := t) hoff)))
        · have hresolving : x.phase ≠ .resolving := fun h => nomatch hp.symm.trans h
          exact hlive.trans (hnext ((exchangeAnswered_reject (s := v) hresolving ha).trans
            (dropStoring_onLine (s := t) hp hab)))
    obtain ⟨hdata, hresult⟩ := exec_exchangeWriteAnswer (l := l) (i := i) (live := live) (a := a) hw
    exact ⟨fun he => hexec (hdata he), fun he => hexec (hresult he)⟩
  · intro w failed halting
    have hfailed : failed ↔ o.isSuccess = false ∧ w.copy.tolerate = false := by
      rw [isSuccess_eq_false_iff, and_assoc]
    refine ⟨rfl, decideAfter_halting, decideAfter_writeReject, fun hh hr hf => ?_, fun hh hr hf => ?_⟩
    · exact decideAfter_failed hh hr ho (hfailed.mp hf)
    · exact decideAfter_goesOn hh hr ho (mt hfailed.mpr hf) hm
  · intro w i p
    exact ⟨goOn_chain l last hold s, goOn_last l last hold s, afterExchange_ends, afterExchange_selects⟩

end Sys2Proof.Machine
end

section
/-! The end of an attempt (R72, R73, R77, R94, R95), and RESOLVING with its station update, alarm and result writes (R37, R38,
R78 to R81). -/

namespace Sys2Proof.Machine

variable {s : State} {l : Line} {o : ExchangeOutcome} {n : Fin 64}

/-! ### The entry held (R66, R117) -/

theorem heldWay_notHeld (h : (s.exch l).entryHeld = false) : s.heldWay l = none := if_neg (by simp [h])

theorem heldWay_entryHeld (h : (s.exch l).entryHeld = true) : s.heldWay l = s.findWay .valid (s.exchKey l) := if_pos h

theorem changeEntry_none {f : StationRecord → StationRecord} (h : s.heldWay l = none) : changeEntry l f s = s := by
  unfold changeEntry
  rw [h]

theorem changeEntry_held {f : StationRecord → StationRecord} (h : s.heldWay l = some n) :
    changeEntry l f s = s.setWay n { s.way n with
      copy := f (s.way n).copy, dirty := (s.way n).dirty || decide (f (s.way n).copy ≠ (s.way n).copy) } := by
  unfold changeEntry
  rw [h]
  rfl

theorem heldCopy_none (h : s.heldWay l = none) : s.heldCopy l = none := by rw [State.heldCopy, h, Option.map_none]

theorem heldCopy_some (h : s.heldWay l = some n) : s.heldCopy l = some (s.way n).copy := by
  rw [State.heldCopy, h, Option.map_some]

/-- A change of the entry held leaves every other block. -/
theorem changeEntry_frame (l : Line) (f : StationRecord → StationRecord) (s : State) :
    (∀ m, (changeEntry l f s).exch m = s.exch m) ∧ (∀ m, (changeEntry l f s).walk m = s.walk m) ∧
      ∀ m, (changeEntry l f s).driver m = s.driver m := by
  cases h : s.heldWay l with
  | none =>
    rw [changeEntry_none h]
    exact ⟨fun _ => rfl, fun _ => rfl, fun _ => rfl⟩
  | some n =>
    rw [changeEntry_held h]
    exact ⟨fun _ => rfl, fun _ => rfl, fun _ => rfl⟩

/-! ### The end of an attempt (R72, R73) -/

theorem failsStation_eq (r : AttemptResult) :
    r.failsStation = decide (r ∈ [AttemptResult.noReply, .corrupt, .stale, .truncated]) := by cases r <;> rfl

theorem isFinal_iff (r : AttemptResult) : r.isFinal = true ↔ r ∈ [AttemptResult.refused, .valid] := by
  cases r <;> decide

/-- R72: the entry held is at the quarantine limit. -/
theorem overLimit_iff : s.overLimit l = true ↔
    ∃ x : StationRecord, s.heldCopy l = some x ∧ (s.driver l).setup.quarantineLimit ≤ x.bucket := by
  unfold State.overLimit
  cases s.heldCopy l <;> simp

/-- R64, R70: the record of an exchange whose attempt has ended with a result. -/
abbrev Exchange.ended (e : Exchange) (r : AttemptResult) : Exchange :=
  { e with finalResult := some r, everySilent := e.everySilent && decide (r = .noReply), storing := false }

/-- R64, R72: the state with the result recorded and the bucket of a failing station raised. -/
def State.attempted (s : State) (l : Line) (r : AttemptResult) : State :=
  if r.failsStation then changeEntry l StationRecord.fail (s.setExch l ((s.exch l).ended r))
  else s.setExch l ((s.exch l).ended r)

/-- What the record of a result leaves in the blocks that decide what follows. -/
theorem attempted_frame (s : State) (l : Line) (r : AttemptResult) :
    (s.attempted l r).exch l = (s.exch l).ended r ∧ (s.attempted l r).walk l = s.walk l ∧
      (s.attempted l r).driver l = s.driver l := by
  unfold State.attempted
  split
  · obtain ⟨he, hw, hd⟩ := changeEntry_frame l StationRecord.fail (s.setExch l ((s.exch l).ended r))
    exact ⟨(he l).trans (State.exch_setExch_self _ _ _), hw l, hd l⟩
  · exact ⟨State.exch_setExch_self _ _ _, rfl, rfl⟩

variable {r : AttemptResult}

/-- R72: an attempt that brings its station to the limit. -/
theorem attemptEnds_quarantines (h : r.failsStation = true ∧ (s.attempted l r).overLimit l = true) :
    attemptEnds l r s = enterResolving l .quarantined (changeEntry l StationRecord.quarantine (s.attempted l r)) :=
  if_pos (by rw [Bool.and_eq_true]; exact h)

/-- R73: another attempt is due while the allowance lasts. -/
theorem attemptEnds_retries (h : ¬(r.failsStation = true ∧ (s.attempted l r).overLimit l = true))
    (hf : r.isFinal = false) (ha : (s.exch l).attempts < (s.exch l).allowance) :
    attemptEnds l r s = (s.attempted l r).setExch l
      (((s.exch l).ended r).retryAfter r (s.driver l).setup.busyBackoff) := by
  obtain ⟨he, -, hd⟩ := attempted_frame s l r
  have hdue : (!r.isFinal &&
      decide (((s.attempted l r).exch l).attempts < ((s.attempted l r).exch l).allowance)) = true := by
    rw [he, hf, Bool.not_false, Bool.true_and]
    exact decide_eq_true ha
  rw [← he, ← hd]
  exact (if_neg (by rw [Bool.and_eq_true]; exact h)).trans (if_pos hdue)

/-- R73, R77: no further attempt is due. -/
theorem attemptEnds_resolves (h : ¬(r.failsStation = true ∧ (s.attempted l r).overLimit l = true))
    (hr : r.isFinal = true ∨ (s.exch l).allowance ≤ (s.exch l).attempts) :
    attemptEnds l r s =
      enterResolving l (outcomeOf (s.walk l) r (s.exch l).finalReply) (s.attempted l r) := by
  obtain ⟨he, hw, -⟩ := attempted_frame s l r
  have hdue : ¬(!r.isFinal &&
      decide (((s.attempted l r).exch l).attempts < ((s.attempted l r).exch l).allowance)) = true := by
    rw [he, Bool.and_eq_true, Bool.not_eq_true', decide_eq_true_eq]
    rintro ⟨hfinal, hlt⟩
    rcases hr with hr | hr
    · simp [hfinal] at hr
    · exact absurd hlt (Nat.not_lt.mpr hr)
  have hreply : ((s.attempted l r).exch l).finalReply = (s.exch l).finalReply := by rw [he]
  rw [← hreply, ← hw]
  exact (if_neg (by rw [Bool.and_eq_true]; exact h)).trans (if_neg hdue)

/-- R77: the outcome by the length of the reply. -/
theorem lengthOutcome_cases (n capacity : Nat) (shortOk : Bool) :
    (n = capacity → lengthOutcome n capacity shortOk = .ok) ∧
    (n < capacity → shortOk = true → lengthOutcome n capacity shortOk = .ok) ∧
    (n < capacity → shortOk = false → lengthOutcome n capacity shortOk = .short) ∧
    (capacity < n → lengthOutcome n capacity shortOk = .long) := by
  unfold lengthOutcome
  refine ⟨fun h => if_pos h, fun h hs => ?_, fun h hs => ?_, fun h => ?_⟩
  · rw [if_neg (by omega), if_pos h, hs, if_pos rfl]
  · rw [if_neg (by omega), if_pos h, hs, if_neg Bool.false_ne_true]
  · rw [if_neg (by omega), if_neg (by omega)]

/-! ### The station update (R79, R80) -/

theorem stateAfter_eq (before : StationState) (anyValid silent : Bool) (o : ExchangeOutcome) :
    stateAfter before anyValid silent o =
      if before = .quarantined then .quarantined else if anyValid then .inService
      else if silent = true ∧ o = .noReply then .absent else before := by
  cases before <;> cases anyValid <;> cases silent <;> by_cases ho : o = .noReply <;> simp [stateAfter, ho]

/-- R80: the toggle fields, each by what the exchange showed. -/
theorem resolveToggle_eq (c : StationRecord) (o : ExchangeOutcome) (e : Exchange) (epoch : Word) :
    c.resolveToggle o e epoch = { c with
      toggle := if e.anyValid then e.sentToggle else c.toggle,
      toggleKnown := if o = .stale then false else if e.anyValid then true else c.toggleKnown,
      toggleEpoch := if e.anyValid then epoch else c.toggleEpoch } := by
  unfold StationRecord.resolveToggle
  by_cases ho : o = .stale <;> cases e.anyValid <;> simp only [ho, if_true, if_false] <;> rfl

/-- R79, R106: a claim changes owner and owner check together. -/
theorem ownedBy_ite (c : StationRecord) (k : Agent) (claims : Prop) [Decidable claims] :
    (if claims then c.ownedBy (some k) else c) = { c with
      owner := if claims then some k else c.owner,
      ownerCheck := if claims then decide (k = 1 ∨ k = 2) else c.ownerCheck } := by
  by_cases h : claims
  · simp only [h, if_true, StationRecord.ownedBy, agreeingCheck, Bool.decide_or]
  · simp only [h, if_false]

/-- R79: the failures count of an exchange without success. -/
theorem failures_eq (o : ExchangeOutcome) (n : Half) :
    (if o.isSuccess then n else satHalf n) = if o = .ok ∨ o = .sent then n else satHalf n := by
  cases o <;> rfl

/-- R79, R80: the record after the station update, field by field. -/
theorem resolve_eq (c : StationRecord) (o : ExchangeOutcome) (e : Exchange) (k : Agent) (claim : Bool) (epoch : Word) :
    c.resolve o e k claim epoch = { c with
      exchanges := satHalf c.exchanges,
      failures := if o = .ok ∨ o = .sent then c.failures else satHalf c.failures,
      lastStatus := if e.anyValid then (e.lastValid.map (·.status)).getD c.lastStatus else c.lastStatus,
      state := if c.state = .quarantined then .quarantined else if e.anyValid then .inService
        else if e.everySilent = true ∧ o = .noReply then .absent else c.state,
      owner := if o = .ok ∧ claim then some k else c.owner,
      ownerCheck := if o = .ok ∧ claim then decide (k = 1 ∨ k = 2) else c.ownerCheck,
      toggle := if e.anyValid then e.sentToggle else c.toggle,
      toggleKnown := if o = .stale then false else if e.anyValid then true else c.toggleKnown,
      toggleEpoch := if e.anyValid then epoch else c.toggleEpoch } := by
  unfold StationRecord.resolve
  dsimp only
  rw [ownedBy_ite, resolveToggle_eq, stateAfter_eq, failures_eq]
  cases e.anyValid <;> cases e.lastValid <;> rfl

theorem stationUpdate_none (h : s.heldWay l = none) : stationUpdate l o s = s := by
  unfold stationUpdate
  exact markEntry_none h

theorem stationUpdate_held (h : s.heldWay l = some n) :
    stationUpdate l o s = s.setWay n { s.way n with
      copy := (s.way n).copy.resolve o (s.exch l) (s.planOf l).agent (s.walk l).copy.claim (s.driver l).powerEpoch,
      dirty := true } := by
  unfold stationUpdate
  exact markEntry_held h

/-! ### The alarm (R81) -/

theorem alarmHandOff_none (h : s.heldWay l = none) : alarmHandOff l s = s := by
  unfold alarmHandOff
  dsimp only
  rw [heldCopy_none h]
  cases (s.exch l).anyValid <;> cases (s.exch l).lastValid <;> rfl

theorem alarmHandOff_noReply (h : (s.exch l).anyValid = false) : alarmHandOff l s = s := by
  unfold alarmHandOff
  dsimp only
  rw [h]

/-- R117: the alarm pending flag changes the record where it was the other one. -/
theorem setAlarmPending_ne (c : StationRecord) (b : Bool) :
    decide (c.setAlarmPending b ≠ c) = (c.alarmPending != b) := by
  by_cases h : c.alarmPending = b
  · subst h
    simp [StationRecord.setAlarmPending]
  · have hne : c.setAlarmPending b ≠ c := fun hc => h (congrArg StationRecord.alarmPending hc).symm
    simp [hne, h]

variable {v : ValidReply}

/-- R81: a valid reply was the last one, and an entry is held: the ALARM bit decides. -/
theorem alarmHandOff_held (h : s.heldWay l = some n) (ha : (s.exch l).anyValid = true)
    (hv : (s.exch l).lastValid = some v) :
    alarmHandOff l s =
      if alarmBit v.status then
        if (s.way n).copy.alarmPending then s
        else handOffAlarm ((s.way n).copy.owner.getD 0) { line := l, station := (s.exch l).station, status := v.status }
          (changeEntry l (·.setAlarmPending true) s)
      else changeEntry l (·.setAlarmPending false) s := by
  unfold alarmHandOff
  dsimp only
  rw [ha, hv, heldCopy_some h]

/-- R81: an alarm is pending from now on. -/
theorem alarmHandOff_raises (h : s.heldWay l = some n) (ha : (s.exch l).anyValid = true)
    (hv : (s.exch l).lastValid = some v) (hb : alarmBit v.status = true) (hp : (s.way n).copy.alarmPending = false) :
    alarmHandOff l s =
      handOffAlarm ((s.way n).copy.owner.getD 0) { line := l, station := (s.exch l).station, status := v.status }
        (s.setWay n { s.way n with dirty := true, copy := { (s.way n).copy with alarmPending := true } }) := by
  rw [alarmHandOff_held h ha hv, if_pos hb, if_neg (by simp [hp]), changeEntry_held h, setAlarmPending_ne, hp,
    show (false != true) = true from rfl, Bool.or_true]
  rfl

theorem alarmHandOff_stays (h : s.heldWay l = some n) (ha : (s.exch l).anyValid = true)
    (hv : (s.exch l).lastValid = some v) (hb : alarmBit v.status = true) (hp : (s.way n).copy.alarmPending = true) :
    alarmHandOff l s = s := by
  rw [alarmHandOff_held h ha hv, if_pos hb, if_pos hp]

theorem alarmHandOff_clears (h : s.heldWay l = some n) (ha : (s.exch l).anyValid = true)
    (hv : (s.exch l).lastValid = some v) (hb : alarmBit v.status = false) :
    alarmHandOff l s = s.setWay n { s.way n with
      dirty := (s.way n).dirty || (s.way n).copy.alarmPending, copy := { (s.way n).copy with alarmPending := false } } := by
  rw [alarmHandOff_held h ha hv, if_neg (by simp [hb]), changeEntry_held h, setAlarmPending_ne, Bool.bne_false]
  rfl

/-! ### The result writes (R37, R38) -/

theorem setWalk_walk (s : State) (l : Line) : s.setWalk l (s.walk l) = s :=
  congrArg (fun v => ({ s with walks := v } : State)) (upd_get s.walks l)

theorem setPlan_plan (s : State) (i : Slot) : s.setPlan i (s.plan i) = s :=
  congrArg (fun v => ({ s with plans := v } : State)) (upd_get s.plans i)

/-- R38: writes handed over with `n` more in the tally and in the plan's outstanding writes. -/
def State.written (s : State) (l : Line) (p : Port) (n : Nat) : State :=
  ((s.setPort p).setWalk l { s.walk l with tally := (s.walk l).tally + n }).setPlan (s.walk l).holder
    { s.plan (s.walk l).holder with outstanding := (s.plan (s.walk l).holder).outstanding + n }

theorem exch_written (s : State) (l m : Line) (p : Port) (n : Nat) : (s.written l p n).exch m = s.exch m := rfl

theorem walk_written (s : State) (l : Line) (p : Port) (n : Nat) :
    (s.written l p n).walk l = { s.walk l with tally := (s.walk l).tally + n } := State.walk_setWalk_self _ _ _

theorem written_zero (s : State) (l : Line) : s.written l s.port 0 = s :=
  (congrArg (fun t : State => t.setPlan (s.walk l).holder (s.plan (s.walk l).holder)) (setWalk_walk s l)).trans
    (setPlan_plan s _)

theorem written_written (s : State) (l : Line) (p q : Port) (n m : Nat) :
    (s.written l p n).written l q m = s.written l q (n + m) := by
  have hw := walk_written s l p n
  have hp : (s.written l p n).plan (s.walk l).holder =
      { s.plan (s.walk l).holder with outstanding := (s.plan (s.walk l).holder).outstanding + n } :=
    State.plan_setPlan_self _ _ _
  unfold State.written at hw hp ⊢
  simp only [hw, hp]
  simp only [State.setPlan, State.setWalk, State.setPort, upd_upd, Nat.add_assoc]

/-- R38: one write handed over, counted in the tally and then in the plan of the walk's holder. -/
theorem modWalk_modPlan_eq_written (s : State) (l : Line) (p : Port) :
    ((s.setPort p).modWalk l fun w => { w with tally := w.tally + 1 }).modPlan
      (((s.setPort p).modWalk l fun w => { w with tally := w.tally + 1 }).slotOf l)
      (fun q => { q with outstanding := q.outstanding + 1 }) = s.written l p 1 := by
  rw [State.slotOf, State.modWalk_eq, State.walk_setWalk_self]
  rfl

theorem queueResult_eq (l : Line) (e : WriteEntry) (s : State) :
    queueResult l e s = s.written l (s.port.handOver e) 1 := modWalk_modPlan_eq_written s l _

theorem foldl_queueResult (l : Line) (es : List WriteEntry) (s : State) :
    es.foldl (fun t e => queueResult l e t) s = s.written l (es.foldl Port.handOver s.port) es.length := by
  induction es generalizing s with
  | nil => exact (written_zero s l).symm
  | cons e es ih =>
    rw [List.foldl_cons, ih, queueResult_eq, written_written, List.length_cons, Nat.add_comm 1]
    rfl

/-- R37: the result write of a member at its place in the group, byte by byte. -/
theorem resultEntry_eq (s : State) (l : Line) (o : ExchangeOutcome) (m : Member) (place : Nat) :
    resultEntry s l o m place =
      { addr := m.addr + 0x18,
        data := [if place = 0 ∨ 0 < m.stored then o.byte else 16, BitVec.ofNat 8 (s.exch l).attempts,
          BitVec.ofNat 8 m.stored, (((s.exch l).finalReply.map fun v => BitVec.ofNat 8 v.length).getD 0),
          (((s.exch l).finalReply.map fun v => v.status).getD 0), 0, 0, 0],
        agent := (s.planOf l).agent, writer := .engine l, op := .result l (s.slotOf l) true } := by
  unfold resultEntry resultPart memberCode
  dsimp only
  cases (s.exch l).finalReply <;> rfl

/-- R38: the result writes of a group are handed over, the last member's first. -/
theorem queueResults_eq (l : Line) (o : ExchangeOutcome) (s : State) :
    queueResults l o s = s.written l
      (((s.walk l).group.zipIdx.map fun p => resultEntry s l o p.1 p.2).reverse.foldl Port.handOver s.port)
      (s.walk l).group.length := by
  unfold queueResults
  rw [foldl_queueResult]
  congr 1
  rw [resultEntries, List.length_reverse, List.length_map, List.length_zipIdx]

/-! ### RESOLVING (R78) -/

/-- R78: the state in which the result writes of an exchange are queued. -/
def State.resolving (s : State) (l : Line) (o : ExchangeOutcome) : State :=
  alarmHandOff l (stationUpdate l o (s.setExch l { s.exch l with phase := .resolving, outcome := some o }))

theorem resolving_moves (s : State) (l : Line) (o : ExchangeOutcome) :
    Moves [.cache, .alarm, .port, .bank] (s.setExch l { s.exch l with phase := .resolving, outcome := some o })
      (s.resolving l o) :=
  ((stationUpdate_moves l o _).mono rfl).trans (alarmHandOff_moves l _)

theorem exch_resolving (s : State) (l : Line) (o : ExchangeOutcome) :
    (s.resolving l o).exch l = { s.exch l with phase := .resolving, outcome := some o } :=
  (congrArg (·.get l) (resolving_moves s l o).exchs_eq).trans (State.exch_setExch_self _ _ _)

theorem walk_resolving (s : State) (l : Line) (o : ExchangeOutcome) : (s.resolving l o).walk l = s.walk l :=
  congrArg (·.get l) (resolving_moves s l o).walks_eq

theorem enterResolving_eq (l : Line) (o : ExchangeOutcome) (s : State) :
    enterResolving l o s = queueResults l o (s.resolving l o) := rfl

theorem exch_enterResolving (l : Line) (o : ExchangeOutcome) (s : State) :
    (enterResolving l o s).exch l = { s.exch l with phase := .resolving, outcome := some o } := by
  rw [enterResolving_eq, queueResults_eq, exch_written, exch_resolving]

theorem tally_enterResolving (l : Line) (o : ExchangeOutcome) (s : State) :
    ((enterResolving l o s).walk l).tally = (s.walk l).tally + (s.walk l).group.length := by
  rw [enterResolving_eq, queueResults_eq, walk_written, walk_resolving]

/-! ### The obligation -/

theorem exec_replyStartTimeout (hs : (s.lineCtl l).state = .awaiting) (hr : (s.lineCtl l).replyStart.isRunning = true) :
    exec (.replyStartTimeout l) s = .next (attemptEnds l .noReply (enterSettling l s)) :=
  congrArg Host.Outcome.next (if_pos ⟨hs, hr⟩)

theorem exec_characterGapExpiry (hs : (s.lineCtl l).state = .receiving) (hr : (s.lineCtl l).charGap.isRunning = true) :
    exec (.characterGapExpiry l) s = .next (attemptEnds l .truncated (enterSettling l (emptyFifo l s))) :=
  congrArg Host.Outcome.next (if_pos ⟨hs, hr⟩)

end Sys2Proof.Machine

namespace Sys2Proof

open Machine

/-- Settles O52: the end of an attempt by its result and the bucket, the entry into RESOLVING, and what its parts write. -/
theorem attemptEnds : Obligations.AttemptEnds := by
  refine ⟨fun s l => ⟨exec_replyStartTimeout, exec_characterGapExpiry⟩, fun s l r => ?_, fun w x v => ?_, fun s l o => ?_,
    fun s l o => ?_, fun s l o => ?_, rfl⟩
  · intro d e fails u atLimit
    have hu : s.attempted l r = u := by
      unfold State.attempted
      rw [failsStation_eq]
      rfl
    have hfails : r.failsStation = fails := failsStation_eq r
    have hlimit : (s.attempted l r).overLimit l = true ↔ atLimit := by
      rw [overLimit_iff, (attempted_frame s l r).2.2, hu]
    have hquarantine : (r.failsStation = true ∧ (s.attempted l r).overLimit l = true) ↔ fails = true ∧ atLimit := by
      rw [hlimit, hfails]
    refine ⟨fun hf ha => ?_, fun hnot => ⟨fun hr ha => ?_, fun hr ha => ?_, fun hr => ?_⟩⟩
    · rw [attemptEnds_quarantines (hquarantine.mpr ⟨hf, ha⟩), hu]
      rfl
    · subst hr
      rw [attemptEnds_retries (mt hquarantine.mp hnot) rfl ha, hu]
      rfl
    · have hfinal : r.isFinal = false := Bool.eq_false_iff.mpr fun hc => hr (List.mem_cons_of_mem _ ((isFinal_iff r).mp hc))
      have hbusy : r ≠ .busy := fun hc => hr (hc ▸ List.mem_cons_self)
      rw [attemptEnds_retries (mt hquarantine.mp hnot) hfinal ha, hu, Exchange.retryAfter, if_neg hbusy]
    · rw [attemptEnds_resolves (mt hquarantine.mp hnot) (hr.imp_left (isFinal_iff r).mpr), hu]
  · exact ⟨rfl, rfl, rfl, rfl, rfl, rfl, rfl, lengthOutcome_cases v.length w.capacity w.copy.shortOk⟩
  · exact ⟨congrArg Exchange.phase (exch_enterResolving l o s), congrArg Exchange.outcome (exch_enterResolving l o s),
      tally_enterResolving l o s, rfl⟩
  · intro e saturating agent claims
    refine ⟨heldWay_notHeld, heldWay_entryHeld, fun h => ⟨stationUpdate_none h, alarmHandOff_none h⟩, fun n h => ?_⟩
    intro way c
    refine ⟨?_, alarmHandOff_noReply, fun v ha hv => ⟨alarmHandOff_raises h ha hv, alarmHandOff_stays h ha hv,
      alarmHandOff_clears h ha hv⟩⟩
    rw [stationUpdate_held h, resolve_eq]
    rfl
  · intro w e i result
    rw [queueResults_eq]
    simp only [resultEntry_eq]
    rfl

end Sys2Proof
end

section
/-! The posting queue as its writers see it (R163), and the payload bytes of a reply (R34, R75). -/

namespace Sys2Proof.Machine

variable {s : State} {l : Line} {p : Port} {e : WriteEntry} {addr : Word} {b : Byte}

/-! ### The tail of the queue (R163) -/

theorem tailOnBus_concat {front : List WriteEntry} (h : p.queue = front ++ [e]) :
    p.tailOnBus = true ↔ p.bus = some .headWrite ∧ front = [] := by
  unfold Port.tailOnBus
  rw [Bool.and_eq_true, decide_eq_true_eq, decide_eq_true_eq, h, List.length_append, List.length_singleton,
    Nat.add_eq_right, List.length_eq_zero_iff]

/-- R163 Merge: what the tail must be for a byte to join it. -/
theorem canMerge_concat {front : List WriteEntry} (h : p.queue = front ++ [e]) :
    p.canMerge l addr = true ↔ (∃ i : Slot, e.op = .replyData l i true) ∧ ¬(p.bus = some .headWrite ∧ front = []) ∧
      e.addr + BitVec.ofNat 32 e.data.length = addr ∧ addr.toNat / 32 = e.addr.toNat / 32 := by
  rw [← tailOnBus_concat h]
  unfold Port.canMerge
  rw [h, List.getLast?_concat]
  dsimp only
  cases e.op with
  | replyData l' i live => simp [and_assoc]
  | _ => simp

theorem canMerge_empty (h : p.queue = []) : p.canMerge l addr = false := by
  unfold Port.canMerge
  rw [h]
  rfl

theorem canMerge_iff (p : Port) (l : Line) (addr : Word) :
    p.canMerge l addr = true ↔ ∃ (front : List WriteEntry) (t : WriteEntry) (i : Slot), p.queue = front ++ [t] ∧
      t.op = .replyData l i true ∧ ¬(p.bus = some .headWrite ∧ front = []) ∧
      t.addr + BitVec.ofNat 32 t.data.length = addr ∧ addr.toNat / 32 = t.addr.toNat / 32 := by
  constructor
  · intro h
    rcases List.eq_nil_or_concat p.queue with hq | ⟨front, t, hq⟩
    · rw [canMerge_empty hq] at h
      cases h
    · rw [List.concat_eq_append] at hq
      obtain ⟨⟨i, hi⟩, hrest⟩ := (canMerge_concat hq).mp h
      exact ⟨front, t, i, hq, hi, hrest⟩
  · rintro ⟨front, t, i, hq, hi, hrest⟩
    exact (canMerge_concat hq).mpr ⟨⟨i, hi⟩, hrest⟩

theorem mergeByte_concat {front : List WriteEntry} (b : Byte) (h : p.queue = front ++ [e]) :
    p.mergeByte b = { p with queue := front ++ [{ e with data := e.data ++ [b] }] } := by
  unfold Port.mergeByte
  rw [h, List.getLast?_concat, List.dropLast_concat]

/-- R163: room for a payload byte, which is first among what waits or finds nothing waiting (log 5). -/
theorem roomForPayload_iff (p : Port) (l : Line) :
    p.roomForPayload l = true ↔ p.queue.length < 16 ∧ (p.waiting = [] ∨
      ∃ (items : List WaitItem) (others : List Waiter),
        p.waiting = { writer := .engine l, items := .payload :: items } :: others) := by
  unfold Port.roomForPayload
  rw [Bool.and_eq_true, decide_eq_true_eq]
  refine and_congr_right fun _ => ?_
  cases p.waiting with
  | nil => simp
  | cons x others =>
    obtain ⟨writer, items⟩ := x
    cases items <;> simp [and_comm]

/-! ### Writes handed over, and writes that wait (R163, R165) -/

theorem takesAtOnce_iff (p : Port) : p.takesAtOnce = true ↔ p.queue.length < 16 ∧ p.waiting = [] := by
  unfold Port.takesAtOnce
  rw [Bool.and_eq_true, decide_eq_true_eq, List.isEmpty_iff]
  rfl

/-- R163, R165: the port with a write joined to the tail and these writers left waiting. -/
abbrev Port.joined (p : Port) (e : WriteEntry) (waiting : List Waiter) : Port :=
  { p with queue := p.queue ++ [e], waiting := waiting,
           preference := if p.queue.length = 11 then .writes else p.preference }

theorem join_eq (p : Port) (e : WriteEntry) : p.join e = p.joined e p.waiting := by
  unfold Port.join
  simp only [Nat.reduceEqDiff]

theorem handOver_joins (hq : p.queue.length < 16) (hw : p.waiting = []) : p.handOver e = p.joined e [] := by
  unfold Port.handOver
  rw [if_pos ((takesAtOnce_iff p).mpr ⟨hq, hw⟩), join_eq, hw]

theorem handOver_waits (h : 16 ≤ p.queue.length ∨ p.waiting ≠ []) :
    p.handOver e = { p with waiting := addWaiting e.writer (.write e) p.waiting } := by
  refine if_neg fun hc => ?_
  obtain ⟨hq, hw⟩ := (takesAtOnce_iff p).mp hc
  rcases h with h | h
  · omega
  · exact h hw

/-- R163: nothing joins a full queue, and nothing joins where nothing waits. -/
theorem joinWaiting_none (h : 16 ≤ p.queue.length ∨ p.waiting = []) : p.joinWaiting = none := by
  unfold Port.joinWaiting
  rcases h with h | h
  · exact if_neg (Nat.not_lt.mpr h)
  · rw [h]
    exact ite_self _

variable {writer : Requester} {items : List WaitItem} {others : List Waiter}

/-- R163: a payload byte that is first keeps the room (log 5). -/
theorem joinWaiting_payload (h : p.waiting = { writer := writer, items := .payload :: items } :: others) :
    p.joinWaiting = none := by
  unfold Port.joinWaiting
  rw [h]
  exact ite_self _

/-- R163: the first write that waits joins, and its writer's next write goes behind those of the other writers. -/
theorem joinWaiting_write (hq : p.queue.length < 16)
    (h : p.waiting = { writer := writer, items := .write e :: items } :: others) :
    p.joinWaiting = some (e, p.joined e
      (if items.isEmpty then others else others ++ [{ writer := writer, items := items }])) := by
  unfold Port.joinWaiting
  rw [h]
  exact (if_pos hq).trans (congrArg (fun q => some (e, q)) (join_eq _ e))

theorem joinWaiting_last (hq : p.queue.length < 16)
    (h : p.waiting = { writer := writer, items := [.write e] } :: others) :
    p.joinWaiting = some (e, p.joined e others) := joinWaiting_write hq h

theorem joinWaiting_more (hi : items ≠ []) (hq : p.queue.length < 16)
    (h : p.waiting = { writer := writer, items := .write e :: items } :: others) :
    p.joinWaiting = some (e, p.joined e (others ++ [{ writer := writer, items := items }])) := by
  rw [joinWaiting_write hq h, if_neg (by simpa using hi)]

/-- R163: a writer that did not wait goes behind the writers that do. -/
theorem addWaiting_new (item : WaitItem) (before : List Waiter) (h : ∀ x ∈ before, x.writer ≠ writer) :
    addWaiting writer item before = before ++ [{ writer := writer, items := [item] }] := by
  induction before with
  | nil => rfl
  | cons x before ih =>
    obtain ⟨hx, hrest⟩ := List.forall_mem_cons.mp h
    exact (if_neg hx).trans (congrArg (x :: ·) (ih hrest))

/-- R163: a writer that waits keeps its place, with one item more behind its others. -/
theorem addWaiting_again (item : WaitItem) (before after : List Waiter) (h : ∀ x ∈ before, x.writer ≠ writer)
    {x : Waiter} (hx : x.writer = writer) :
    addWaiting writer item (before ++ x :: after) = before ++ { x with items := x.items ++ [item] } :: after := by
  induction before with
  | nil => exact if_pos hx
  | cons y before ih =>
    obtain ⟨hy, hrest⟩ := List.forall_mem_cons.mp h
    exact (if_neg hy).trans (congrArg (y :: ·) (ih hrest))

variable {n : Nat}

theorem pumpWrites_none (n : Nat) (h : s.port.joinWaiting = none) : pumpWrites n s = s := by
  cases n with
  | zero => rfl
  | succ n =>
    unfold pumpWrites
    rw [h]

theorem pumpWrites_write (h : s.port.joinWaiting = some (e, p)) (hb : e.op.isWriteBack = false) :
    pumpWrites (n + 1) s = pumpWrites n (s.setPort p) := by
  rw [pumpWrites, h]
  dsimp only
  cases ho : e.op with
  | writeBack key =>
    rw [ho] at hb
    cases hb
  | _ => rfl

theorem pumpWrites_writeBack {key : Key} (h : s.port.joinWaiting = some (e, p)) (hb : e.op = .writeBack key) :
    pumpWrites (n + 1) s = pumpWrites n (wayHandedOver key (s.setPort p)) := by
  rw [pumpWrites, h]
  dsimp only
  rw [hb]

/-! ### What a header character fixes (R34, R75) -/

variable {x : Exchange} {c : Byte} {g : List Member} {rejected : Bool}

theorem takeHeader_other (h : x.taken < 2 ∨ 4 < x.taken) : x.takeHeader c g rejected = x := by
  unfold Exchange.takeHeader
  split
  · omega
  · omega
  · omega
  · rfl

theorem takeHeader_control (h : x.taken = 2) : x.takeHeader c g rejected = { x with control := c } := by
  unfold Exchange.takeHeader
  rw [h]
  rfl

theorem takeHeader_status (h : x.taken = 3) : x.takeHeader c g rejected = { x with status := c } := by
  unfold Exchange.takeHeader
  rw [h]
  rfl

/-- R75: the fifth character gives the length and fixes whether the attempt is stored. -/
theorem takeHeader_length (h : x.taken = 4) :
    let r := judgeReply x.sentToggle x.control x.status
    let stores := r ≠ .stale ∧ r ≠ .busy ∧ rejected = false
    (stores → x.takeHeader c g rejected =
      { x with replyLength := c.toNat, storing := true, cursorMember := nextBuffer g 0, cursorOffset := 0 }) ∧
    (¬stores → x.takeHeader c g rejected = { x with replyLength := c.toNat, storing := false }) := by
  intro r stores
  have hstore : (decide (r ≠ .stale) && decide (r ≠ .busy) && !rejected) = decide stores := by
    simp [stores, Bool.decide_and, Bool.and_assoc]
  unfold Exchange.takeHeader
  rw [h]
  dsimp only
  rw [hstore]
  refine ⟨fun hs => ?_, fun hs => ?_⟩
  · rw [decide_eq_true hs]
    rfl
  · rw [decide_eq_false hs]
    rfl

/-! ### The cursor (R34) -/

/-- R34: members without capacity are passed over. -/
theorem nextBuffer_append {passed empty : List Member} (h : ∀ m ∈ empty, m.capacity = 0) (after : List Member) :
    nextBuffer (passed ++ (empty ++ after)) passed.length =
      passed.length + empty.length + (after.takeWhile fun m => decide (m.capacity = 0)).length := by
  unfold nextBuffer
  rw [List.drop_left, List.takeWhile_append_of_pos (by simpa using h), List.length_append, Nat.add_assoc]

theorem nextBuffer_end {passed empty : List Member} (h : ∀ m ∈ empty, m.capacity = 0) :
    nextBuffer (passed ++ empty) passed.length = passed.length + empty.length := by
  simpa using nextBuffer_append (passed := passed) h []

theorem nextBuffer_member {passed empty after : List Member} {m : Member} (h : ∀ m ∈ empty, m.capacity = 0)
    (hm : 0 < m.capacity) :
    nextBuffer (passed ++ empty ++ m :: after) passed.length = passed.length + empty.length := by
  rw [List.append_assoc, nextBuffer_append h, List.takeWhile_cons_of_neg (by simpa using Nat.ne_of_gt hm)]
  rfl

variable {before after : List Member} {m : Member}

/-- R34: the cursor stands on a member of the group. -/
theorem getElem?_cursor (hg : g = before ++ m :: after) (hc : x.cursorMember = before.length) :
    g[x.cursorMember]? = some m := by
  rw [hg, hc, List.getElem?_append_right (Nat.le_refl _), Nat.sub_self, List.getElem?_cons_zero]

theorem advanceCursor_inside (hg : g = before ++ m :: after) (hc : x.cursorMember = before.length)
    (h : x.cursorOffset + 1 < m.capacity) : x.advanceCursor g = { x with cursorOffset := x.cursorOffset + 1 } := by
  unfold Exchange.advanceCursor
  rw [getElem?_cursor hg hc]
  exact if_pos h

theorem advanceCursor_next (hg : g = before ++ m :: after) (hc : x.cursorMember = before.length)
    (h : m.capacity ≤ x.cursorOffset + 1) :
    x.advanceCursor g = { x with cursorMember := nextBuffer g (before.length + 1), cursorOffset := 0 } := by
  unfold Exchange.advanceCursor
  rw [getElem?_cursor hg hc, ← hc]
  exact if_neg (Nat.not_lt.mpr h)

theorem mapIdx_eq_self {f : Nat → Member → Member} (h : ∀ (j : Nat) (y : Member), j < g.length → f j y = y) :
    g.mapIdx f = g :=
  List.ext_getElem List.length_mapIdx fun j _ hj => by rw [List.getElem_mapIdx, h j _ hj]

/-- R34: the member at its place counts one byte more, and the others do not. -/
theorem countStored_append (before after : List Member) (m : Member) :
    countStored (before ++ m :: after) before.length = before ++ { m with stored := m.stored + 1 } :: after := by
  unfold countStored
  rw [List.mapIdx_append, List.mapIdx_cons, mapIdx_eq_self fun j y hj => if_neg (Nat.ne_of_lt hj),
    mapIdx_eq_self fun j y _ => if_neg (by omega), if_pos (Nat.zero_add _)]

theorem cursorAddr_eq (hx : s.exch l = x) (hw : (s.walk l).group = g) (hg : g = before ++ m :: after)
    (hc : x.cursorMember = before.length) :
    s.cursorAddr l = some (m.replyAddr + BitVec.ofNat 32 x.cursorOffset) := by
  unfold State.cursorAddr
  rw [hx, hw]
  dsimp only
  rw [getElem?_cursor hg hc, Option.map_some]

/-! ### A payload byte is taken (R34, R75, R163) -/

theorem canTake_iff : s.canTake l addr = true ↔ s.port.canMerge l addr = true ∨ s.port.roomForPayload l = true :=
  Bool.or_eq_true_iff

theorem storeAddr_eq_some_iff : s.storeAddr l = some addr ↔
    (5 ≤ (s.exch l).taken ∧ (s.exch l).taken < 5 + (s.exch l).replyLength) ∧ (s.exch l).storing = true ∧
      s.cursorAddr l = some addr := by
  unfold State.storeAddr Exchange.atPayload
  simp [and_assoc]

/-- R75: the byte at the head of the FIFO is to be stored, and the posting queue can take it. -/
theorem byteCanBeTaken_iff (h : s.storeAddr l = some addr) :
    s.byteCanBeTaken l = true ↔ ((s.exch l).phase = .onLine ∧ (s.exch l).abandon = false) ∧ (s.lineCtl l).fifo ≠ [] ∧
      s.canTake l addr = true := by
  unfold State.byteCanBeTaken
  rw [h]
  simp [and_assoc]

theorem exec_payloadByteTaken (h : s.byteCanBeTaken l = true) :
    exec (.payloadByteTaken l) s = .next (takeCharacters l s) := congrArg Host.Outcome.next (if_pos h)

theorem exec_payloadByteTaken_waits (h : ¬s.byteCanBeTaken l = true) : exec (.payloadByteTaken l) s = .next s :=
  congrArg Host.Outcome.next (if_neg h)

/-- R34: the cursor and the count of the member it stood on move on, as the exchange and the group of `s` give them. -/
def State.cursorMoved (s : State) (l : Line) (t : State) : State :=
  (t.setExch l ((s.exch l).advanceCursor (s.walk l).group)).setWalk l
    { t.walk l with group := countStored (s.walk l).group (s.exch l).cursorMember }

/-- R163: the byte is handed over, and then the cursor and the count move. -/
theorem storeByte_eq (he : (postByte l addr b s).exch l = s.exch l)
    (hg : ((postByte l addr b s).walk l).group = (s.walk l).group) :
    storeByte l addr b s = s.cursorMoved l
      ((postByte l addr b s).setPort ((postByte l addr b s).port.dropPayloadWait l)) := by
  unfold State.cursorMoved
  rw [← he, ← hg]
  rfl

/-- R163: a byte that merges. -/
theorem storeByte_merges (h : s.port.canMerge l addr = true) :
    storeByte l addr b s = s.cursorMoved l (s.setPort ((s.port.mergeByte b).dropPayloadWait l)) := by
  have hpost : postByte l addr b s = s.setPort (s.port.mergeByte b) := if_pos h
  rw [storeByte_eq (by rw [hpost]; rfl) (by rw [hpost]; rfl), hpost]
  rfl

/-- R163: a byte that becomes an entry. -/
theorem storeByte_joins (h : s.port.canMerge l addr = false) :
    storeByte l addr b s = s.cursorMoved l
      (s.written l ((s.port.join (replyDataEntry s l addr b)).dropPayloadWait l) 1) := by
  have hpost : postByte l addr b s = s.written l (s.port.join (replyDataEntry s l addr b)) 1 :=
    (if_neg (by rw [h]; exact Bool.false_ne_true)).trans (modWalk_modPlan_eq_written s l _)
  rw [storeByte_eq (by rw [hpost, exch_written]) (by rw [hpost, walk_written]), hpost]
  rfl

theorem lineCtl_storeByte (l : Line) (addr : Word) (b : Byte) (s : State) (m : Line) :
    (storeByte l addr b s).lineCtl m = s.lineCtl m := by
  unfold storeByte postByte
  split <;> rfl

theorem drainFifo_nil (n : Nat) (h : (s.lineCtl l).fifo = []) : drainFifo n l s = s := by
  cases n with
  | zero => rfl
  | succ n =>
    unfold drainFifo
    rw [h]

theorem drainFifo_stores {rest : List Byte} (hf : (s.lineCtl l).fifo = b :: rest) (ha : s.storeAddr l = some addr)
    (ht : s.canTake l addr = true) :
    drainFifo (n + 1) l s = drainFifo n l
      ((storeByte l addr b (s.setLine l { s.lineCtl l with fifo := rest })).modExch l fun x =>
        { x with taken := x.taken + 1 }) := by
  rw [drainFifo, hf]
  dsimp only
  rw [ha]
  exact if_pos ht

/-- R96: the frame is not yet complete, so no reply is. -/
theorem takeCharacters_incomplete (h : ((drainFifo 33 l s).lineCtl l).frameReceived = false) :
    takeCharacters l s = pumpWaiting (drainFifo 33 l s) := by
  have hline : ((pumpWaiting (drainFifo 33 l s)).lineCtl l).frameReceived = false :=
    (congrArg (fun v => (v.get l).frameReceived) (pumpWaiting_moves (drainFifo 33 l s)).lines_eq).trans h
  refine if_neg ?_
  rw [State.frameTaken, hline]
  exact Bool.false_ne_true

/-- R75: one byte to be stored is all that waits, and the frame is not complete. -/
theorem takeCharacters_oneByte (hf : (s.lineCtl l).fifo = [b]) (hr : (s.lineCtl l).frameReceived = false)
    (ha : s.storeAddr l = some addr) (ht : s.canTake l addr = true) :
    takeCharacters l s = pumpWaiting ((storeByte l addr b (s.setLine l { s.lineCtl l with fifo := [] })).modExch l
      fun x => { x with taken := x.taken + 1 }) := by
  let t := (storeByte l addr b (s.setLine l { s.lineCtl l with fifo := [] })).modExch l
    fun x => { x with taken := x.taken + 1 }
  have hline : t.lineCtl l = { s.lineCtl l with fifo := [] } :=
    (lineCtl_storeByte l addr b _ l).trans (State.lineCtl_setLine_self _ _ _)
  have hdrain : drainFifo 33 l s = t :=
    (drainFifo_stores hf ha ht).trans (drainFifo_nil 32 (congrArg LineController.fifo hline))
  have hframe : ((drainFifo 33 l s).lineCtl l).frameReceived = false := by
    rw [hdrain, hline]
    exact hr
  rw [takeCharacters_incomplete hframe, hdrain]

/-- Settles O55: the byte by whether the queue can take it, the header and the cursor, and the writes that wait. -/
theorem payloadByteTaken : Obligations.PayloadByteTaken := by
  refine ⟨fun s l b addr => ?_, fun e c g rejected => ?_, fun p l addr b => ?_, fun p e => ?_, ?_, fun s => ?_⟩
  · intro e w i moved entry stored takable
    have haddr (h : stored) : s.storeAddr l = some addr := by
      obtain ⟨-, -, h5, hlen, hstoring, hcursor⟩ := h
      exact storeAddr_eq_some_iff.mpr ⟨⟨h5, hlen⟩, hstoring, hcursor⟩
    have htaken (h : stored) : s.byteCanBeTaken l = true ↔ (s.lineCtl l).fifo ≠ [] ∧ takable := by
      rw [byteCanBeTaken_iff (haddr h), canTake_iff]
      exact and_iff_right ⟨h.1, h.2.1⟩
    refine ⟨fun hp ha hf hr h5 hlen hs hc ht => ?_, fun h hf ht => ?_, fun h ht => ?_, storeByte_merges, storeByte_joins⟩
    · have h : stored := ⟨hp, ha, h5, hlen, hs, hc⟩
      rw [exec_payloadByteTaken ((htaken h).mpr ⟨by simp [hf], ht⟩),
        takeCharacters_oneByte hf hr (haddr h) (canTake_iff.mpr ht)]
    · exact exec_payloadByteTaken ((htaken h).mpr ⟨hf, ht⟩)
    · exact exec_payloadByteTaken_waits fun hc => ht ((htaken h).mp hc).2
  · intro r stores
    refine ⟨takeHeader_other, takeHeader_control, takeHeader_status, fun h => (takeHeader_length h).1,
      fun h => (takeHeader_length h).2, fun passed empty h => ⟨nextBuffer_end h, fun m after hm => nextBuffer_member h hm⟩,
      fun before after m hg hc => ⟨advanceCursor_inside hg hc, advanceCursor_next hg hc, ?_,
        fun s l hx hw => cursorAddr_eq hx hw hg hc⟩⟩
    rw [hg, hc, countStored_append]
  · exact ⟨canMerge_iff p l addr, fun front t => mergeByte_concat b, roomForPayload_iff p l⟩
  · exact ⟨handOver_joins, handOver_waits, joinWaiting_none, fun writer items others hq =>
      ⟨joinWaiting_payload, joinWaiting_last hq, fun hi => joinWaiting_more hi hq⟩⟩
  · exact fun writer item before after h => ⟨addWaiting_new item before h, fun x => addWaiting_again item before after h⟩
  · exact ⟨rfl, pumpWrites_none 16, fun n e p h => ⟨pumpWrites_write h, fun key => pumpWrites_writeBack h⟩⟩

end Sys2Proof.Machine
end

section
/-! What every step keeps of capacities and ranges (R59, R72, R97, R139, R151, R163). Each law is shown of every `Move`. -/

namespace Sys2Proof.Machine

/-! ### The alarm lists (R139) and the posting queue (R163) -/

theorem alarm_resetBlocks (s : State) (k : Agent) : (resetBlocks s).alarm k = AlarmList.reset :=
  Vector.getElem_replicate k.isLt

/-- R139: a move that changes an alarm list adds no alarm, or finds room for it. -/
theorem Move.keeps_alarmRoomLaw {k : Kind} {s t : State} (m : Move k s t) (h : AlarmRoomLaw s) : AlarmRoomLaw t := by
  cases m with
  | closed hb => rw [foldl_resetPlan]; exact h
  | alarm j a ha =>
    intro i
    rw [State.alarm_setAlarm]
    split
    · exact ha.elim (fun hle => Nat.le_trans hle (h j)) id
    · exact h i
  | reset u g hu =>
    intro i
    have hempty : ((((resetBlocks s).setUnit u).setLog g).alarm i) = AlarmList.reset := alarm_resetBlocks s i
    rw [hempty]
    exact Nat.zero_le _
  | _ => exact h

/-- R163: a move that changes the posting queue adds no entry, or finds room for it. -/
theorem Move.keeps_queueLaw {k : Kind} {s t : State} (m : Move k s t) (h : QueueLaw s) : QueueLaw t := by
  cases m with
  | closed hb => rw [foldl_resetPlan]; exact h
  | port x hx => exact hx.elim (fun hle => Nat.le_trans hle h) id
  | reset u g hu => exact Nat.zero_le _
  | _ => exact h

/-! ### The receive FIFOs (R97) -/

/-- A change of one line whose FIFO gets no longer, or has room. -/
theorem FifoLaw.setLine {s : State} (h : FifoLaw s) {l : Line} {c : LineController}
    (hc : c.fifo.length ≤ (s.lineCtl l).fifo.length ∨ c.fifo.length ≤ fifoCapacity) : FifoLaw (s.setLine l c) := by
  intro m
  rw [State.lineCtl_setLine]
  split
  · exact hc.elim (fun hle => Nat.le_trans hle (h l)) id
  · exact h m

theorem Move.keeps_fifoLaw {k : Kind} {s t : State} (m : Move k s t) (h : FifoLaw s) : FifoLaw t := by
  cases m with
  | closed hb => rw [foldl_resetPlan]; exact h
  | line l c hc => exact h.setLine hc.fifo
  | lineDown l c hd hf hn => exact h.setLine (.inl hf)
  | lineUp l c hd hf ho => exact h.setLine (.inl hf)
  | reset u g hu =>
    intro l
    have hline : (((resetBlocks s).setUnit u).setLog g).lineCtl l = (s.lineCtl l).afterReset := lineCtl_resetBlocks s l
    rw [hline]
    exact Nat.zero_le _
  | _ => exact h

/-! ### The effective classes (R59) -/

/-- R59 of one plan context: its effective class lies between its base class and 7. -/
abbrev Plan.classFits (p : Plan) : Prop := p.baseClass ≤ p.effClass ∧ p.effClass ≤ 7

theorem classFits_reset : Plan.reset.classFits := by decide

/-- A change of one plan context that keeps its class in range. -/
theorem ClassLaw.setPlan {s : State} (h : ClassLaw s) {i : Slot} {q : Plan}
    (hq : (s.plan i).classFits → q.classFits) : ClassLaw (s.setPlan i q) := by
  intro j
  rw [State.plan_setPlan]
  split
  · exact hq (h i)
  · exact h j

theorem Move.keeps_classLaw {k : Kind} {s t : State} (m : Move k s t) (h : ClassLaw s) : ClassLaw t := by
  cases m with
  | plan i q hq => exact h.setPlan hq.inRange
  | count i q hq =>
    refine h.setPlan fun hp => ?_
    rw [Plan.classFits, hq.baseClass, hq.effClass]
    exact hp
  | ended i hi => exact ClassLaw.setPlan h id
  | freed i hi => exact ClassLaw.setPlan (s := s.setBacklog _) h fun _ => classFits_reset
  | closed hb =>
    intro i
    rw [State.plan_setUnit, State.plan_setBacklog, plan_resetEnded]
    split
    · exact classFits_reset
    · exact h i
  | reset u g hu =>
    intro i
    have hplan : (((resetBlocks s).setUnit u).setLog g).plan i = Plan.reset := plan_resetBlocks s i
    rw [hplan]
    exact classFits_reset
  | _ => exact h

/-! ### WORK_BASE (R151) and the buckets (R72) -/

theorem Move.keeps_workBaseLaw {k : Kind} {s t : State} (m : Move k s t) (h : WorkBaseLaw s) : WorkBaseLaw t := by
  have hbase {v : CommandUnit} (hv : v.workBase = s.unit.workBase ∨ v.workBase &&& 0xFF = 0) :
      v.workBase &&& 0xFF = 0 := hv.elim (fun he => he ▸ h) id
  cases m with
  | unit x hx => exact hbase hx.base
  | reset u g hu => exact hbase hu.base
  | _ => exact h

theorem way_resetBlocks (s : State) (n : Fin 64) : (resetBlocks s).way n = Way.reset :=
  Vector.getElem_replicate n.isLt

theorem Move.keeps_bucketLaw {k : Kind} {s t : State} (m : Move k s t) (h : BucketLaw s) : BucketLaw t := by
  cases m with
  | closed hb => rw [foldl_resetPlan]; exact h
  | cache x hx => exact hx h
  | reset u g hu =>
    intro n
    have hway : (((resetBlocks s).setUnit u).setLog g).way n = Way.reset := way_resetBlocks s n
    rw [hway]
    exact Nat.zero_le _
  | _ => exact h

/-- Settles O59: each move keeps each of the six laws, and none of them reads the command queue. -/
theorem boundsKept : Obligations.BoundsKept := fun _ _ h =>
  ⟨step_keeps Move.keeps_alarmRoomLaw (fun _ _ hp => hp) h, step_keeps Move.keeps_queueLaw (fun _ _ hp => hp) h,
    step_keeps Move.keeps_fifoLaw (fun _ _ hp => hp) h, step_keeps Move.keeps_classLaw (fun _ _ hp => hp) h,
    step_keeps Move.keeps_workBaseLaw (fun _ _ hp => hp) h, step_keeps Move.keeps_bucketLaw (fun _ _ hp => hp) h⟩

end Sys2Proof.Machine
end

section
/-! The run queue (R48, R49, R58): its order, the place of an entry, aging steps and joins. -/

namespace Sys2Proof.Machine

variable {s : State} {l : Line} {i : Slot} {e : QueueEntry}

/-! ### The order by three keys (R48) -/

/-- R48, as the three keys written out. -/
theorem standsBefore_iff (s : State) (a b : QueueEntry) :
    s.standsBefore a b = true ↔
      (s.plan b.slot).effClass < (s.plan a.slot).effClass ∨
        ((s.plan a.slot).effClass = (s.plan b.slot).effClass ∧
          (((s.plan a.slot).state = .setAside ∧ (s.plan b.slot).state ≠ .setAside) ∨
            (((s.plan a.slot).state = .setAside ↔ (s.plan b.slot).state = .setAside) ∧ a.stamp < b.stamp))) := by
  unfold State.standsBefore
  by_cases hclass : (s.plan a.slot).effClass = (s.plan b.slot).effClass
  · by_cases ha : (s.plan a.slot).state = .setAside <;> by_cases hb : (s.plan b.slot).state = .setAside <;>
      simp [hclass, ha, hb]
  · simp [hclass]

/-- R48: the second key of an entry, the lower standing before: 0 for a plan that is SET_ASIDE. -/
def State.asideKey (s : State) (e : QueueEntry) : Nat := if (s.plan e.slot).state = .setAside then 0 else 1

/-- R48: the order of the run queue is lexicographic in three numbers. -/
theorem standsBefore_iff_keys (s : State) (a b : QueueEntry) :
    s.standsBefore a b = true ↔
      (s.plan b.slot).effClass < (s.plan a.slot).effClass ∨
        ((s.plan a.slot).effClass = (s.plan b.slot).effClass ∧
          (s.asideKey a < s.asideKey b ∨ (s.asideKey a = s.asideKey b ∧ a.stamp < b.stamp))) := by
  rw [standsBefore_iff, State.asideKey, State.asideKey]
  by_cases ha : (s.plan a.slot).state = .setAside <;> by_cases hb : (s.plan b.slot).state = .setAside <;> simp [ha, hb]

theorem standsBefore_trans {a b c : QueueEntry} (hab : s.standsBefore a b = true) (hbc : s.standsBefore b c = true) :
    s.standsBefore a c = true := by
  rw [standsBefore_iff_keys] at hab hbc ⊢
  omega

/-- Of two entries with different stamps one stands before the other. -/
theorem standsBefore_of_not {a b : QueueEntry} (hne : a.stamp ≠ b.stamp) (h : s.standsBefore b a = false) :
    s.standsBefore a b = true := by
  rw [← Bool.not_eq_true, standsBefore_iff_keys] at h
  rw [standsBefore_iff_keys]
  omega

/-! ### The place of an entry (R48) -/

theorem placeEntry_perm (s : State) (e : QueueEntry) (q : List QueueEntry) : (s.placeEntry e q).Perm (e :: q) := by
  induction q with
  | nil => exact .refl _
  | cons x q ih =>
    unfold State.placeEntry
    split
    · exact .refl _
    · exact (ih.cons x).trans (.swap e x q)

/-- An entry stands behind those it does not stand before. -/
theorem placeEntry_append {before after : List QueueEntry} (hb : ∀ x ∈ before, s.standsBefore e x = false)
    (ha : ∀ x ∈ after.head?, s.standsBefore e x = true) : s.placeEntry e (before ++ after) = before ++ e :: after := by
  induction before with
  | nil =>
    cases after with
    | nil => rfl
    | cons x rest => exact if_pos (ha x rfl)
  | cons y before ih =>
    rw [List.forall_mem_cons] at hb
    obtain ⟨hy, hrest⟩ := hb
    exact (if_neg (by rw [hy]; nofun)).trans (congrArg (y :: ·) (ih hrest))

/-- An entry put in its place keeps the order of the queue. -/
theorem pairwise_placeEntry {q : List QueueEntry} (hq : q.Pairwise fun a b => s.standsBefore a b = true)
    (hstamp : ∀ x ∈ q, x.stamp ≠ e.stamp) : (s.placeEntry e q).Pairwise fun a b => s.standsBefore a b = true := by
  induction q with
  | nil => exact List.pairwise_singleton _ e
  | cons x q ih =>
    obtain ⟨hx, hrest⟩ := List.pairwise_cons.mp hq
    rw [List.forall_mem_cons] at hstamp
    obtain ⟨hne, hstamps⟩ := hstamp
    unfold State.placeEntry
    split
    · next hbefore =>
      refine List.pairwise_cons.mpr ⟨fun y hy => ?_, hq⟩
      rcases List.mem_cons.mp hy with rfl | hy
      · exact hbefore
      · exact standsBefore_trans hbefore (hx y hy)
    · next hnot =>
      have hbehind := standsBefore_of_not hne (Bool.eq_false_iff.mpr hnot)
      refine List.pairwise_cons.mpr ⟨fun y hy => ?_, ih hrest hstamps⟩
      rcases List.mem_cons.mp ((placeEntry_perm s e q).mem_iff.mp hy) with rfl | hy
      · exact hbehind
      · exact hx y hy

/-! ### Aging (R58, R59) -/

/-- R58: the aging timer after an aging step from class `c`. -/
theorem agingTimer_succ {period c : Nat} (h : c < 7) :
    agingTimer period (c + 1) = if period = 0 ∨ c = 6 then .stopped else .running period := by
  have htop : 7 ≤ c + 1 ↔ c = 6 := by omega
  unfold agingTimer
  simp only [htop]

theorem exec_agingExpiry (hf : (s.sched (s.plan i).line).queue.find? (fun e => decide (e.slot = i)) = some e)
    (hrun : e.aging.isRunning = true) (hc : (s.plan i).effClass < 7) :
    exec (.agingExpiry i) s = .next (ageEntry i s) := by
  have hruns : s.agingRuns (s.plan i).line i = true := by
    refine List.any_eq_true.mpr ⟨e, List.mem_of_find?_eq_some hf, ?_⟩
    rw [List.find?_some hf, hrun]
    rfl
  exact congrArg Host.Outcome.next (if_pos ⟨hruns, hc⟩)

/-- R58: an aging step of a plan with an entry, at its line's scheduler. -/
theorem ageEntry_eq (hf : (s.sched (s.plan i).line).queue.find? (fun e => decide (e.slot = i)) = some e) :
    let t := s.setPlan i { s.plan i with effClass := (s.plan i).effClass + 1 }
    let x := s.sched (s.plan i).line
    ageEntry i s = t.setSched (s.plan i).line { x with
      queue := t.placeEntry { e with aging := agingTimer x.agingPeriod ((s.plan i).effClass + 1) }
        (x.queue.filter fun e => decide (e.slot ≠ i)) } := by
  intro t x
  unfold ageEntry
  simp only [State.modPlan_eq, State.sched_setPlan, State.plan_setPlan_self, hf]
  unfold leaveQueue
  simp only [State.modSched_eq, State.sched_setSched_self, State.setSched_setSched]
  rw [placeEntry_congr (t := t.setSched (s.plan i).line _) (State.plans_setSched _ _ _)]
  rfl

/-! ### Joining (R49) -/

/-- R49: below its highest value the join stamp counter rises by 1. -/
theorem advanceStamp_below {x : Scheduler} (h : x.stampCounter < lastStamp) :
    x.advanceStamp = { x with stampCounter := x.stampCounter + 1 } := if_neg (Nat.not_le.mpr h)

/-- R49: at the counter's highest value the queue is renumbered. -/
theorem advanceStamp_last {x : Scheduler} (h : lastStamp ≤ x.stampCounter) :
    x.advanceStamp = { x with queue := renumber x.queue, stampCounter := x.queue.length } := if_pos h

/-- R47, R49: the entry with which the plan of slot `i` joins its run queue. -/
def State.joinEntry (s : State) (i : Slot) : QueueEntry :=
  { slot := i, stamp := (s.sched (s.plan i).line).stampCounter,
    aging := agingTimer (s.sched (s.plan i).line).agingPeriod (s.plan i).effClass }

theorem joinQueue_below (h : (s.sched (s.plan i).line).stampCounter < lastStamp) :
    let x := s.sched (s.plan i).line
    joinQueue i s = s.setSched (s.plan i).line { x with
      queue := s.placeEntry (s.joinEntry i) x.queue, stampCounter := x.stampCounter + 1 } :=
  congrArg (s.setSched _) (advanceStamp_below h)

theorem joinQueue_last (h : lastStamp ≤ (s.sched (s.plan i).line).stampCounter) :
    let x := s.sched (s.plan i).line
    joinQueue i s = s.setSched (s.plan i).line { x with
      queue := renumber (s.placeEntry (s.joinEntry i) x.queue), stampCounter := x.queue.length + 1 } := by
  intro x
  rw [← show (s.placeEntry (s.joinEntry i) x.queue).length = x.queue.length + 1 from (placeEntry_perm _ _ _).length_eq]
  exact congrArg (s.setSched _) (advanceStamp_last h)

/-- Settles O24: the aging step, the order as lexicographic in three numbers, and the two cases of the join stamp counter. -/
theorem agingRaisesClass : Obligations.AgingRaisesClass := by
  refine ⟨fun s i e => ?_, standsBefore_iff, fun s e before after hb ha => placeEntry_append hb ha,
    fun s e q hq hstamp => pairwise_placeEntry hq hstamp, fun s i => ⟨joinQueue_below, joinQueue_last⟩⟩
  intro p l x t hf hrun hc
  rw [exec_agingExpiry hf hrun hc, ageEntry_eq hf, agingTimer_succ hc]

end Sys2Proof.Machine
end

section
/-! One selection (R50 to R53), and FLOOR (R60, R61). -/

namespace Sys2Proof.Machine

variable {s : State} {l : Line} {i : Slot} {e : QueueEntry}

/-! ### Lines in service and eligible entries (R50, R51) -/

theorem inService_iff : s.inService l = true ↔ (s.lineCtl l).state ∉ [.disabled, .powering, .cut] := by
  unfold State.inService
  cases (s.lineCtl l).state <;> decide

theorem eligible_iff :
    s.eligible l e = true ↔ (s.sched l).floor ≤ (s.plan e.slot).baseClass ∧
      ((s.plan e.slot).state = .setAside ∨ ((s.plan e.slot).state = .queued ∧ s.backlog.hold = false)) := by
  simp [State.eligible]

/-- R50: the first eligible entry is the one before which no entry is eligible. -/
theorem firstEligible_of_split {before after : List QueueEntry} (hq : (s.sched l).queue = before ++ e :: after)
    (hb : ∀ x ∈ before, s.eligible l x = false) (he : s.eligible l e = true) : s.firstEligible l = some e := by
  refine List.find?_eq_some_iff_append.mpr ⟨he, before, after, hq, fun x hx => ?_⟩
  rw [hb x hx]
  rfl

/-! ### One selection (R52, R53) -/

/-- R52: a line with a holder, or out of service, makes no selection. -/
theorem wouldChoose_of_busy (h : (s.sched l).holder ≠ none ∨ s.inService l = false) : s.wouldChoose l = false := by
  refine Bool.eq_false_iff.mpr fun hw => ?_
  obtain ⟨hfree, hserves, -⟩ := wouldChoose_iff.mp hw
  exact h.elim (fun hh => hh hfree) fun hs => nomatch hs.symm.trans hserves

/-- R52: without an eligible entry nothing is chosen. -/
theorem wouldChoose_of_none_eligible (h : ∀ e ∈ (s.sched l).queue, s.eligible l e = false) : s.wouldChoose l = false := by
  refine Bool.eq_false_iff.mpr fun hw => ?_
  obtain ⟨-, -, e, hmem, he⟩ := wouldChoose_iff.mp hw
  exact nomatch (h e hmem).symm.trans he

/-- R52: a line with a holder makes no selection. -/
theorem selectFrom_held (n : Nat) (h : (s.sched l).holder = some i) : selectFrom n l s = s := by
  cases n with
  | zero => rfl
  | succ n => exact if_neg (by simp [h])

/-- R52, R53: one round of a selection that finds an eligible entry. -/
theorem selectFrom_chooses (n : Nat) (hfree : (s.sched l).holder = none) (hserves : s.inService l = true)
    (hfirst : s.firstEligible l = some e) :
    selectFrom (n + 1) l s = selectFrom n l (fetch l (activate l e.slot s)) := by
  rw [selectFrom, if_pos (by simp [hfree, hserves]), hfirst]

/-- R53: the plan that is made the holder holds the line. -/
theorem holder_activate : ((activate l i s).sched l).holder = some i := by
  unfold activate leaveQueue
  dsimp only
  split <;> simp

/-- R28: a fetch that meets no fault leaves the Line Schedulers as they are. -/
theorem sched_fetch (h : s.fetchFault l = none) : (fetch l s).sched l = s.sched l := by
  unfold fetch
  rw [h]
  exact congrArg (·.get l) (issueFetch_moves l _).scheds_eq

/-- R52, R53: a selection makes the first eligible entry's plan the holder; its first fetch ends the selection. -/
theorem select_chooses (hfree : (s.sched l).holder = none) (hserves : s.inService l = true)
    (hfirst : s.firstEligible l = some e) (hfetch : (activate l e.slot s).fetchFault l = none) :
    select l s = fetch l (activate l e.slot s) := by
  have hheld : ((fetch l (activate l e.slot s)).sched l).holder = some e.slot := by
    rw [sched_fetch hfetch, holder_activate]
  exact (selectFrom_chooses 32 hfree hserves hfirst).trans (selectFrom_held 32 hheld)

/-- Settles O22, by whether a selection would choose, and then by the entry it finds first. -/
theorem selectionTakesFirstEligible : Obligations.SelectionTakesFirstEligible := by
  refine fun s l => ⟨inService_iff, fun e => eligible_iff, fun h => select_of_not_wouldChoose (wouldChoose_of_busy h),
    fun h => select_of_not_wouldChoose (wouldChoose_of_none_eligible h), ?_⟩
  intro e before after hfree hserves hq hb he hfetch
  exact select_chooses hfree hserves (firstEligible_of_split hq hb he) hfetch

/-! ### FLOOR (R60, R61) -/

theorem exec_floor {k : Agent} (value : Half) (h : s.Accepts k floorCode) :
    exec (.floor k l value) s = .next (setFloor k l value (s.taken k (wordOf floorCode l 0 value))) :=
  congrArg Host.Outcome.next (takeWord_accepted _ h (show floorCode ≠ resetCode by decide))

/-- R60: a floor above 8 is refused. -/
theorem setFloor_refused {k : Agent} {value : Half} (h : 8 < value.toNat) :
    setFloor k l value s = postVerdict k .invalidArgument 0 s := if_pos h

/-- R60, R61: a floor of at most 8 is set and the one before it returned; a selection follows when it is lower. -/
theorem setFloor_sets {k : Agent} {value : Half} (h : value.toNat ≤ 8) :
    let old := (s.sched l).floor
    let t := postVerdict k .done (BitVec.ofNat 16 old) (s.setSched l { s.sched l with floor := value.toNat })
    setFloor k l value s = if value.toNat < old then select l t else t := if_neg (Nat.not_lt.mpr h)

/-- Settles O21, by the value of the new floor against 8 and against the old one. -/
theorem floorSet : Obligations.FloorSet := by
  intro s k l value h old t
  have ht : postVerdict k .done (BitVec.ofNat 16 old)
      ((s.taken k (wordOf floorCode l 0 value)).setSched l { s.sched l with floor := value.toNat }) = t :=
    postVerdict_taken (s.setSched l { s.sched l with floor := value.toNat }) k (wordOf floorCode l 0 value) _ _
  have hsets (hv : value.toNat ≤ 8) :
      exec (.floor k l value) s = .next (if value.toNat < old then select l t else t) := by
    rw [exec_floor value h, setFloor_sets (s := s.taken k _) hv, ← ht]
    rfl
  refine ⟨fun hv => ?_, fun hv hle => ?_, fun hv hlt => ?_⟩
  · rw [exec_floor value h, setFloor_refused hv, postVerdict_taken]
    rfl
  · rw [hsets hv, if_neg (Nat.not_lt.mpr hle)]
  · rw [hsets hv, if_pos hlt]

end Sys2Proof.Machine
end

section
/-! The attempt as it is sent: its beginning within the budget (R69, R70, R93), the characters of the wake lead and of the
request frame with their levels (R89, R91), and the abort (R100). -/

namespace Sys2Proof.Machine

variable {s : State} {l : Line}

/-! ### The beginning (R69, R70, R93) -/

/-- R69, R129: the frames that a zone admits; in COOL and WARM a budget of 0 admits every frame. -/
theorem admits_iff (d : Driver) : d.admits = true ↔
    (d.zone = .cool → d.setup.coolBudget = 0 ∨ d.windowCount < d.setup.coolBudget) ∧
      (d.zone = .warm → d.setup.warmBudget = 0 ∨ d.windowCount < d.setup.warmBudget) ∧
      (d.zone = .hot → d.windowCount < d.setup.hotBudget) := by
  unfold Driver.admits Driver.budget
  cases d.zone with
  | cool => by_cases h : d.setup.coolBudget = 0 <;> simp [h]
  | warm => by_cases h : d.setup.warmBudget = 0 <;> simp [h]
  | hot => simp

theorem canBegin_iff : s.canBegin l = true ↔
    (s.exch l).phase = .budgetWait ∧ (s.lineCtl l).state = .ready ∧ (s.driver l).admits = true := by
  unfold State.canBegin
  simp [and_assoc]

theorem exec_attemptBegin (h : s.canBegin l = true) : exec (.attemptBegin l) s = .next (beginAttempt l s) :=
  congrArg Host.Outcome.next (if_pos h)

theorem exec_attemptBegin_waits (h : ¬s.canBegin l = true) : exec (.attemptBegin l) s = .next s :=
  congrArg Host.Outcome.next (if_neg h)

/-- R93: without a wake lead the line sends the request frame at once. -/
theorem lineBegins_sending {c : LineController} {wakeLead : Nat} (h : wakeLead = 0) :
    c.beginAttempt wakeLead = { c with state := .sending, tx := .frame 1, rx := none, expected := none } := if_pos h

theorem lineBegins_waking {c : LineController} {wakeLead : Nat} (h : wakeLead ≠ 0) :
    c.beginAttempt wakeLead = { c with state := .waking, tx := .wake 1, rx := none, expected := none } := if_neg h

/-- Settles O50, by whether the attempt can begin, and then by its wake lead. -/
theorem attemptBegins : Obligations.AttemptBegins := by
  intro s l d e w admits ready begun
  have hready : s.canBegin l = true ↔ ready := by rw [canBegin_iff, admits_iff]
  have hbegins (h : ready) :
      exec (.attemptBegin l) s = .next (begun.setLine l ((s.lineCtl l).beginAttempt e.wakeLead)) :=
    exec_attemptBegin (hready.mpr h)
  refine ⟨fun h hw => ?_, fun h hw => ?_, fun h => exec_attemptBegin_waits (mt hready.mp h)⟩
  · rw [hbegins h, lineBegins_sending hw]
  · rw [hbegins h, lineBegins_waking hw]

/-! ### The characters sent (R87, R93, R100) -/

/-- Under an abandonment every event that ends a character of a WAKING line makes it the last one (R100, log 20). -/
theorem exec_waking_aborts (hs : (s.lineCtl l).state = .waking) (ha : (s.exch l).abandon = true) :
    exec (.wakeLeadSent l) s = .next (enterAborting l s) ∧
      exec (.sentCharacterComplete l) s = .next (enterAborting l s) :=
  ⟨congrArg Host.Outcome.next ((if_neg (not_not_intro hs)).trans (if_pos ha)),
    congrArg Host.Outcome.next ((if_neg fun h => h.1 hs).trans (if_pos ha))⟩

theorem exec_sending_aborts (hs : (s.lineCtl l).state = .sending) (ha : (s.exch l).abandon = true) :
    exec (.requestFrameSent l) s = .next (enterAborting l s) ∧
      exec (.sentCharacterComplete l) s = .next (enterAborting l s) :=
  ⟨congrArg Host.Outcome.next ((if_neg (not_not_intro hs)).trans (if_pos ha)),
    congrArg Host.Outcome.next ((if_neg fun h => h.2 hs).trans (if_pos ha))⟩

theorem exec_wakeLeadSent (hs : (s.lineCtl l).state = .waking) (ha : (s.exch l).abandon = false) :
    exec (.wakeLeadSent l) s = .next (beginFrame l s) :=
  congrArg Host.Outcome.next ((if_neg (not_not_intro hs)).trans (if_neg (Bool.eq_false_iff.mp ha)))

theorem exec_requestFrameSent (hs : (s.lineCtl l).state = .sending) (ha : (s.exch l).abandon = false) :
    exec (.requestFrameSent l) s = .next (frameSent l s) :=
  congrArg Host.Outcome.next ((if_neg (not_not_intro hs)).trans (if_neg (Bool.eq_false_iff.mp ha)))

/-- R93: the place in the wake lead or frame advances with a character (log 1). -/
theorem exec_sentCharacterComplete (hs : (s.lineCtl l).state = .waking ∨ (s.lineCtl l).state = .sending)
    (ha : (s.exch l).abandon = false) :
    exec (.sentCharacterComplete l) s = .next (s.setLine l { s.lineCtl l with
      tx := (s.lineCtl l).tx.advance (s.exch l).wakeLead (s.frameLength l) }) :=
  congrArg Host.Outcome.next
    ((if_neg fun h => hs.elim h.1 h.2).trans (if_neg (Bool.eq_false_iff.mp ha)))

theorem advance_wake {n wakeLead : Nat} (frameLength : Nat) (h : n < wakeLead) :
    (TxPosition.wake n).advance wakeLead frameLength = .wake (n + 1) := if_pos h

theorem advance_frame {n frameLength : Nat} (wakeLead : Nat) (h : n < frameLength) :
    (TxPosition.frame n).advance wakeLead frameLength = .frame (n + 1) := if_pos h

/-- R87: a broadcast expects no reply. -/
theorem frameSent_broadcast (h : (s.exch l).station = 0) :
    frameSent l s = enterResolving l .sent (enterSettling l s) := if_pos h

theorem frameSent_awaits (h : (s.exch l).station ≠ 0) :
    frameSent l s = s.setLine l { s.lineCtl l with
      state := .awaiting, tx := .none, replyStart := .running (s.driver l).setup.replyStart } := if_neg h

theorem exec_abortExpiry (hs : (s.lineCtl l).state = .aborting) (hr : (s.lineCtl l).abort.isRunning = true) :
    exec (.abortExpiry l) s = .next (concludeAbandon l (enterSettling l s)) :=
  congrArg Host.Outcome.next (if_pos ⟨hs, hr⟩)

/-! ### The levels (R89, R91) -/

theorem sentLevels_none (h : (s.lineCtl l).tx = .none) : s.sentLevels l = [] := by
  unfold State.sentLevels State.sentCharacter
  rw [h]

theorem sentLevels_wake {n : Nat} (h : (s.lineCtl l).tx = .wake n) :
    s.sentLevels l = characterLevels (s.driver l).setup.parity wakeCharacter := by
  unfold State.sentLevels State.sentCharacter
  rw [h]

theorem sentLevels_frame {n : Nat} {b : Byte} (h : (s.lineCtl l).tx = .frame (n + 1))
    (hb : (requestFrame (s.exch l).station (controlCharacter (s.exch l).sentToggle (s.exch l).fresh)
      (s.walk l).copy.function (s.exch l).txBuffer)[n]? = some b) :
    s.sentLevels l = characterLevels (s.driver l).setup.parity b := by
  unfold State.sentLevels State.sentCharacter
  rw [h]
  dsimp only
  rw [Nat.add_sub_cancel, hb]

/-- The levels of the data bits, the least significant first (R89). -/
def dataLevels (b : Byte) : List Level := (List.range 8).map fun i => levelOf (b.getLsbD i)

theorem characterLevels_noParity (b : Byte) : characterLevels false b = .space :: dataLevels b ++ [.mark] := rfl

theorem characterLevels_parity (b : Byte) :
    characterLevels true b = .space :: dataLevels b ++ [levelOf (parityOf b), .mark] :=
  congrArg (Level.space :: ·) (List.append_assoc _ _ _)

theorem levelOf_mark (bit : Bool) : decide (levelOf bit = .mark) = bit := by cases bit <;> rfl

theorem marks_dataLevels (b : Byte) : ((dataLevels b).filter fun x => decide (x = .mark)).length = onesIn b := by
  unfold dataLevels onesIn
  rw [List.filter_map, List.length_map]
  simp only [Function.comp_def, levelOf_mark]

/-- R89: with the parity bit the number of 1 bits is even. -/
theorem marks_parity_even (b : Byte) :
    ((dataLevels b ++ [levelOf (parityOf b)]).filter fun x => decide (x = .mark)).length % 2 = 0 := by
  rw [List.filter_append, List.length_append, marks_dataLevels, List.filter_cons, List.filter_nil, levelOf_mark,
    parityOf]
  rcases Nat.mod_two_eq_zero_or_one (onesIn b) with h | h
  · simp [h]
  · simp [h, Nat.add_mod]

/-- Settles O51: the events of the line in WAKING, SENDING and ABORTING, the character sent, its levels, and its time. -/
theorem sendingGoesOn : Obligations.SendingGoesOn := by
  refine ⟨fun s l => ?_, fun s l => ?_, fun b => ?_, rfl⟩
  · intro c e aborting at'
    refine ⟨exec_waking_aborts, exec_sending_aborts, exec_wakeLeadSent, fun n hs ha ht hn => ?_, fun n hs ha ht hn => ?_,
      fun hs ha h => ?_, fun hs ha h => ?_, exec_abortExpiry⟩
    · rw [exec_sentCharacterComplete (.inl hs) ha, ht, advance_wake _ hn]
    · rw [exec_sentCharacterComplete (.inr hs) ha, ht, advance_frame (frameLength := s.frameLength l) _ hn]
    · rw [exec_requestFrameSent hs ha, frameSent_awaits h]
    · rw [exec_requestFrameSent hs ha, frameSent_broadcast h]
  · exact ⟨sentLevels_none, fun n => sentLevels_wake, fun n b => sentLevels_frame⟩
  · exact ⟨characterLevels_noParity b, levelOf (parityOf b), characterLevels_parity b, marks_parity_even b⟩

end Sys2Proof.Machine
end

section
/-! The reply as it is received: a character's checks (R90, R92), the character placed or the attempt ended (R95 to R98), how
the Engine takes from the FIFO (R75), and the judgement of a complete reply (R71, R96). -/

namespace Sys2Proof.Machine

variable {s : State} {l : Line} {p n : Nat} {data : Byte} {parityBit : Bool} {stop : Level}

/-! ### The checks of a character (R90, R92) -/

theorem goodCharacter_iff (parity : Bool) (data : Byte) (parityBit : Bool) (stop : Level) :
    goodCharacter parity data parityBit stop = true ↔
      stop = .mark ∧ (parity = true → evenParity data parityBit = true) := by
  unfold goodCharacter
  cases parity <;> simp

/-- R92: a character at a position of the reply passes its check: the lead, the address echo, the length, and by the expected
length the two check characters. -/
theorem accepts_iff (c : LineController) (station : Byte) (p : Nat) (data : Byte) :
    c.accepts station p data = true ↔
      (p = 1 → data = 0xB4) ∧ (p = 2 → data = station) ∧ (p = 5 → data.toNat ≤ 240) ∧
        (p ∉ [1, 2, 5] → ∀ n : Nat, c.expected = some n → (p + 1 = n → data = c.sum) ∧ (p = n → data = c.xor)) := by
  unfold LineController.accepts
  by_cases h1 : p = 1
  · rw [if_pos h1, decide_eq_true_eq]
    simp [h1, replyLead]
  by_cases h2 : p = 2
  · simp [h2]
  by_cases h5 : p = 5
  · simp [h5]
  have hother : p ∉ [1, 2, 5] := by simp [h1, h2, h5]
  rw [if_neg h1, if_neg h2, if_neg h5]
  cases c.expected with
  | none => simp [h1, h2, h5]
  | some n =>
    simp only [h1, h2, h5, hother, false_imp_iff, true_and, not_false_eq_true, forall_const, Option.some.injEq, forall_eq']
    by_cases hsum : p + 1 = n
    · have hxor : p ≠ n := by omega
      simp [hsum, hxor]
    · by_cases hxor : p = n
      · simp [hxor]
      · simp [hsum, hxor]

theorem isLast_iff (c : LineController) (p : Nat) : c.isLast p = true ↔ c.expected = some p := decide_eq_true_iff

/-! ### A character completes (R95 to R98) -/

/-- R90: the line as it hears the stop bit of a character. -/
abbrev LineController.hear (c : LineController) (stop : Level) : LineController := { c with input := stop }

/-- R90: the state in which line `l` has heard the stop bit. -/
abbrev State.heard (s : State) (l : Line) (stop : Level) : State := s.setLine l ((s.lineCtl l).hear stop)

/-- R92, R95: line `l` with the character at position `p` placed in its FIFO. -/
abbrev State.lineWith (s : State) (l : Line) (p : Nat) (data : Byte) (stop : Level) : LineController :=
  ((s.lineCtl l).hear stop).receive p data (s.driver l).setup.charGap

/-- R90, R92: the character is good and passes the check of its position. -/
abbrev State.passes (s : State) (l : Line) (p : Nat) (data : Byte) (parityBit : Bool) (stop : Level) : Prop :=
  goodCharacter (s.driver l).setup.parity data parityBit stop = true ∧
    (s.lineCtl l).accepts (s.exch l).station p data = true

theorem exec_replyCharacter (hs : (s.lineCtl l).state = .receiving) (hr : (s.lineCtl l).rx = some p) :
    exec (.replyCharacter l data parityBit stop) s = .next (characterCompletes l p data parityBit stop s) := by
  refine congrArg Host.Outcome.next ?_
  rw [hs, hr]

/-- What a character does once the line has heard it, in the order of the checks: the FIFO's room, then the character. -/
theorem characterCompletes_eq (l : Line) (p : Nat) (data : Byte) (parityBit : Bool) (stop : Level) (s : State) :
    characterCompletes l p data parityBit stop s =
      if 32 ≤ (s.lineCtl l).fifo.length then receptionFails l .overrun (s.heard l stop)
      else if !goodCharacter (s.driver l).setup.parity data parityBit stop ||
          !(s.lineCtl l).accepts (s.exch l).station p data then
        receptionFails l .corrupt (s.heard l stop)
      else takeCharacters l (if (s.lineCtl l).isLast p then
          s.setLine l ({ s.lineWith l p data stop with frameReceived := true }.settle (s.driver l).setup.guardGap)
        else s.setLine l (s.lineWith l p data stop)) := by
  unfold characterCompletes setInput enterSettling
  simp only [State.modLine_eq, State.lineCtl_setLine_self, State.setLine_setLine, State.driver_setLine, State.exch_setLine]
  rfl

/-- R97: a character that finds the FIFO full. -/
theorem characterCompletes_overrun (h : 32 ≤ (s.lineCtl l).fifo.length) :
    characterCompletes l p data parityBit stop s = receptionFails l .overrun (s.heard l stop) :=
  (characterCompletes_eq l p data parityBit stop s).trans (if_pos h)

/-- R90, R92: the two tests of a character fail exactly where the character does not pass. -/
theorem refused_iff_not_passes :
    (!goodCharacter (s.driver l).setup.parity data parityBit stop ||
      !(s.lineCtl l).accepts (s.exch l).station p data) = true ↔ ¬s.passes l p data parityBit stop := by
  rw [← Bool.not_and, Bool.not_eq_true', ← Bool.not_eq_true, Bool.and_eq_true]

/-- R98: a character that is broken or that its check refuses. -/
theorem characterCompletes_corrupt (h : (s.lineCtl l).fifo.length < 32) (hp : ¬s.passes l p data parityBit stop) :
    characterCompletes l p data parityBit stop s = receptionFails l .corrupt (s.heard l stop) :=
  (characterCompletes_eq l p data parityBit stop s).trans
    ((if_neg (Nat.not_le.mpr h)).trans (if_pos (refused_iff_not_passes.mpr hp)))

/-- R92, R95: a character that passes is placed in the FIFO. -/
theorem characterCompletes_placed (h : (s.lineCtl l).fifo.length < 32) (hp : s.passes l p data parityBit stop)
    (hl : (s.lineCtl l).expected ≠ some p) :
    characterCompletes l p data parityBit stop s = takeCharacters l (s.setLine l (s.lineWith l p data stop)) := by
  rw [characterCompletes_eq, if_neg (Nat.not_le.mpr h), if_neg (not_not_intro hp ∘ refused_iff_not_passes.mp),
    if_neg (mt (isLast_iff _ p).mp hl)]

/-- R96: with the xor check, which ended at mark, the frame is received and the guard timer runs. -/
theorem characterCompletes_last (h : (s.lineCtl l).fifo.length < 32) (hp : s.passes l p data parityBit stop)
    (hm : stop = .mark) (hl : (s.lineCtl l).expected = some p) :
    characterCompletes l p data parityBit stop s = takeCharacters l (s.setLine l { s.lineWith l p data stop with
      frameReceived := true, state := .settling, tx := .none, rx := none, replyStart := .stopped, charGap := .stopped,
      abort := .stopped, guard := .running (s.driver l).setup.guardGap }) := by
  rw [characterCompletes_eq, if_neg (Nat.not_le.mpr h), if_neg (not_not_intro hp ∘ refused_iff_not_passes.mp),
    if_pos ((isLast_iff _ p).mpr hl), hm]
  rfl

/-! ### How a reply is judged (R71, R96) -/

/-- R71: the toggle echo is looked at first, then the busy bit, then the refusal flag. -/
theorem judgeReply_cases (sent : Bool) (control status : Byte) :
    (control.getLsbD 0 ≠ sent → judgeReply sent control status = .stale) ∧
    (control.getLsbD 0 = sent → status.getLsbD 0 = true → judgeReply sent control status = .busy) ∧
    (control.getLsbD 0 = sent → status.getLsbD 0 = false → control.getLsbD 7 = true →
      judgeReply sent control status = .refused) ∧
    (control.getLsbD 0 = sent → status.getLsbD 0 = false → control.getLsbD 7 = false →
      judgeReply sent control status = .valid) := by
  unfold judgeReply toggleEcho busyBit refusalFlag
  refine ⟨fun ht => if_pos ht, fun ht hb => ?_, fun ht hb hr => ?_, fun ht hb hr => ?_⟩
  · rw [if_neg (not_not_intro ht), if_pos hb]
  · rw [if_neg (not_not_intro ht), if_neg (Bool.eq_false_iff.mp hb), if_pos hr]
  · rw [if_neg (not_not_intro ht), if_neg (Bool.eq_false_iff.mp hb), if_neg (Bool.eq_false_iff.mp hr)]

/-- R96: the frame is taken, and its attempt ends. -/
abbrev State.frameEnded (s : State) (l : Line) : State := s.setLine l { s.lineCtl l with frameReceived := false }

/-- R71: a STALE reply is not recorded. -/
theorem replyComplete_stale (h : judgeReply (s.exch l).sentToggle (s.exch l).control (s.exch l).status = .stale) :
    replyComplete l s = attemptEnds l .stale (s.frameEnded l) := by
  unfold replyComplete
  dsimp only
  rw [h]
  rfl

/-- R71: every other reply is recorded as valid. -/
theorem replyComplete_recorded {r : AttemptResult}
    (h : judgeReply (s.exch l).sentToggle (s.exch l).control (s.exch l).status = r) (hr : r ≠ .stale) :
    replyComplete l s = attemptEnds l r ((s.frameEnded l).setExch l (s.exch l).recordReply) := by
  unfold replyComplete
  dsimp only
  rw [h, if_neg hr]
  rfl

/-! ### What the Engine takes from the FIFO (R75, R96) -/

variable {b : Byte} {addr : Word} {rest : List Byte}

theorem setExch_exch (s : State) (l : Line) : s.setExch l (s.exch l) = s :=
  congrArg (fun v => { s with exchs := v }) (upd_get s.exchs l)

theorem atPayload_iff (e : Exchange) : e.atPayload = true ↔ 5 ≤ e.taken ∧ e.taken < 5 + e.replyLength := by
  unfold Exchange.atPayload
  rw [Bool.and_eq_true, decide_eq_true_eq, decide_eq_true_eq]

/-- R75: a header character is never stored. -/
theorem storeAddr_header (h : ¬(s.exch l).atPayload = true) : s.storeAddr l = none := by
  unfold State.storeAddr
  simp [h]

/-- R34, R75: a payload character of an attempt that is not stored, or past the last buffer, has no place. -/
theorem storeAddr_dropped (h : (s.exch l).storing = false ∨ s.cursorAddr l = none) : s.storeAddr l = none := by
  unfold State.storeAddr
  rcases h with h | h <;> simp [h]

theorem takePlain_header (h : ¬(s.exch l).atPayload = true) :
    takePlain l b s = s.setExch l ((s.exch l).takeHeader b (s.walk l).group (s.walk l).writeReject) :=
  congrArg (s.setExch l) (if_neg h)

theorem takePlain_payload (h : (s.exch l).atPayload = true) : takePlain l b s = s :=
  (congrArg (s.setExch l) (if_pos h)).trans (setExch_exch s l)

/-- R75: the state with the head of the FIFO gone. -/
abbrev State.popped (s : State) (l : Line) (rest : List Byte) : State :=
  s.setLine l { s.lineCtl l with fifo := rest }

/-- R75: one character more of the reply has been taken. -/
abbrev State.counted (t : State) (l : Line) : State :=
  t.setExch l { t.exch l with taken := (t.exch l).taken + 1 }

/-- R75: a character without a place in a buffer is taken at once. -/
theorem drainFifo_plain (hf : (s.lineCtl l).fifo = b :: rest) (ha : s.storeAddr l = none) :
    drainFifo (n + 1) l s = drainFifo n l ((takePlain l b (s.popped l rest)).counted l) := by
  rw [drainFifo, hf]
  dsimp only
  rw [ha]
  rfl

theorem drainFifo_header (hf : (s.lineCtl l).fifo = b :: rest) (h : ¬(s.exch l).atPayload = true) :
    drainFifo (n + 1) l s = drainFifo n l (((s.popped l rest).setExch l
      ((s.exch l).takeHeader b (s.walk l).group (s.walk l).writeReject)).counted l) := by
  rw [drainFifo_plain hf (storeAddr_header h), takePlain_header (s := s.popped l rest) h]
  rfl

theorem drainFifo_drops (hf : (s.lineCtl l).fifo = b :: rest) (h : (s.exch l).atPayload = true)
    (hd : (s.exch l).storing = false ∨ s.cursorAddr l = none) :
    drainFifo (n + 1) l s = drainFifo n l ((s.popped l rest).counted l) := by
  rw [drainFifo_plain hf (storeAddr_dropped hd), takePlain_payload (s := s.popped l rest) h]

/-- R75: a stored byte that the posting queue cannot take stays at the head and waits (log 5). -/
theorem drainFifo_waits (hf : (s.lineCtl l).fifo = b :: rest) (ha : s.storeAddr l = some addr)
    (ht : ¬s.canTake l addr = true) : drainFifo (n + 1) l s = s.setPort (s.port.waitPayload l) := by
  rw [drainFifo, hf]
  dsimp only
  rw [ha]
  exact if_neg ht

theorem frameTaken_iff : s.frameTaken l = true ↔ (s.lineCtl l).frameReceived = true ∧ (s.lineCtl l).fifo = [] := by
  unfold State.frameTaken
  rw [Bool.and_eq_true, List.isEmpty_iff]

/-- R96: the last character of a frame makes the reply complete. -/
theorem takeCharacters_whole (h : (pumpWaiting (drainFifo 33 l s)).frameTaken l = true) :
    takeCharacters l s = replyComplete l (pumpWaiting (drainFifo 33 l s)) := if_pos h

theorem takeCharacters_partial (h : ¬(pumpWaiting (drainFifo 33 l s)).frameTaken l = true) :
    takeCharacters l s = pumpWaiting (drainFifo 33 l s) := if_neg h

/-- Settles O54: the character by the FIFO's room and its checks, the judgement of a reply, and what the Engine takes. -/
theorem replyCharacterReceived : Obligations.ReplyCharacterReceived := by
  refine ⟨fun s l p data parity stop hs hrx => ?_, judgeReply_cases, fun s l n b rest hf => ?_, fun s l => ?_⟩
  · intro c u setup good fits placed act
    have hact : act = .next (characterCompletes l p data parity stop s) := exec_replyCharacter hs hrx
    have hpasses : s.passes l p data parity stop ↔ good ∧ fits :=
      and_congr (goodCharacter_iff _ _ _ _) (accepts_iff _ _ _ _)
    refine ⟨fun hfull => ?_, fun hroom hbad => ?_, fun hroom hg hfit hlast => ?_, fun hroom hg hfit hlast => ?_⟩
    · rw [hact, characterCompletes_overrun hfull]
      rfl
    · rw [hact, characterCompletes_corrupt hroom (mt hpasses.mp hbad)]
      rfl
    · rw [hact, characterCompletes_placed hroom (hpasses.mpr ⟨hg, hfit⟩) hlast]
      rfl
    · rw [hact, characterCompletes_last hroom (hpasses.mpr ⟨hg, hfit⟩) hg.1 hlast]
      rfl
  · intro e w popped counted payload
    have hpayload : e.atPayload = true ↔ payload := atPayload_iff e
    refine ⟨fun h => drainFifo_header hf (mt hpayload.mp h), fun h hd => drainFifo_drops hf (hpayload.mpr h) hd,
      fun addr h hstoring hcursor => ?_⟩
    have haddr : s.storeAddr l = some addr := storeAddr_eq_some_iff.mpr ⟨h, hstoring, hcursor⟩
    exact ⟨fun ht => drainFifo_stores hf haddr (canTake_iff.mpr ht),
      fun ht => drainFifo_waits hf haddr (mt canTake_iff.mp ht)⟩
  · exact ⟨drainFifo_nil 33, fun h => takeCharacters_whole (frameTaken_iff.mpr h),
      fun h => takeCharacters_partial (mt frameTaken_iff.mp h), replyComplete_stale, fun r => replyComplete_recorded⟩

end Sys2Proof.Machine
end

section
/-! The events of the receive input: a start bit, activity, the return to mark, and the guard timer (R90, R94, R95, R99). -/

namespace Sys2Proof.Machine

variable {s : State} {l : Line}

/-! ### The line hears space (R90, R99) -/

/-- R99: line `l` settles with its input at space, and holds the guard timer at its full gap. -/
abbrev State.settledAtSpace (s : State) (l : Line) : State :=
  s.setLine l (((s.lineCtl l).hear .space).settle (s.driver l).setup.guardGap)

/-- R90, R99: hearing a level and settling change the line twice, in turn. -/
theorem enterSettling_setInput (l : Line) (v : Level) (s : State) :
    enterSettling l (setInput l v s) = s.setLine l (((s.lineCtl l).hear v).settle (s.driver l).setup.guardGap) := by
  unfold enterSettling setInput
  simp only [State.modLine_eq, State.lineCtl_setLine_self, State.setLine_setLine, State.driver_setLine]

/-- R90: a level heard leaves the line in its state. -/
theorem state_setInput (l : Line) (v : Level) (s : State) :
    ((setInput l v s).lineCtl l).state = (s.lineCtl l).state := by
  unfold setInput
  simp only [State.modLine_eq, State.lineCtl_setLine_self]

/-- R99: an input that has been at space all along settles as one that goes to space. -/
theorem enterSettling_atSpace (h : (s.lineCtl l).input = .space) : enterSettling l s = s.settledAtSpace l := by
  have hheard : (s.lineCtl l).hear .space = s.lineCtl l := by rw [← h]
  rw [State.settledAtSpace, hheard]
  rfl

/-! ### Activity (R99) -/

theorem activity_settles (h : (s.lineCtl l).state = .settling ∨ (s.lineCtl l).state = .ready) :
    activity l s = s.settledAtSpace l := by
  rw [State.settledAtSpace, ← enterSettling_setInput]
  unfold activity
  dsimp only
  rw [state_setInput]
  rcases h with h | h <;> rw [h]

/-- R90: outside SETTLING and READY activity sets nothing but the level heard. -/
theorem activity_heard (h : (s.lineCtl l).state ∉ [.settling, .ready]) : activity l s = s.heard l .space := by
  unfold activity
  dsimp only
  rw [state_setInput]
  cases hs : (s.lineCtl l).state
  case settling => simp [hs] at h
  case ready => simp [hs] at h
  all_goals rfl

/-! ### A start bit (R94, R95, R99) -/

/-- R94: in AWAITING a start bit begins the reply. -/
theorem startBit_awaiting (h : (s.lineCtl l).state = .awaiting) : startBit l s = s.setLine l { s.lineCtl l with
    input := .space, state := .receiving, replyStart := .stopped, charGap := .stopped, rx := some 1 } := by
  unfold startBit
  dsimp only
  rw [state_setInput, h]
  simp only [setInput, State.modLine_eq, State.lineCtl_setLine_self, State.setLine_setLine]

/-- R95: in RECEIVING a start bit begins the next character. -/
theorem startBit_receiving (h : (s.lineCtl l).state = .receiving) :
    startBit l s = s.setLine l { s.lineCtl l with input := .space, charGap := .stopped } := by
  unfold startBit
  dsimp only
  rw [state_setInput, h]
  simp only [setInput, State.modLine_eq, State.lineCtl_setLine_self, State.setLine_setLine, h]

/-- R99: where no reply is awaited or received, a start bit is activity. -/
theorem startBit_eq_activity (h : (s.lineCtl l).state ∉ [.awaiting, .receiving]) : startBit l s = activity l s := by
  unfold startBit activity
  dsimp only
  rw [state_setInput]
  cases hs : (s.lineCtl l).state
  case awaiting => simp [hs] at h
  case receiving => simp [hs] at h
  all_goals rfl

theorem startBit_settles (h : (s.lineCtl l).state = .settling ∨ (s.lineCtl l).state = .ready) :
    startBit l s = s.settledAtSpace l := by
  refine (startBit_eq_activity ?_).trans (activity_settles h)
  rcases h with h | h <;> simp [h]

/-- R90: in every other state the line only hears the start bit. -/
theorem startBit_heard (h : (s.lineCtl l).state ∉ [.awaiting, .receiving, .settling, .ready]) :
    startBit l s = s.heard l .space :=
  (startBit_eq_activity fun hreply => h (List.mem_append_left [.settling, .ready] hreply)).trans
    (activity_heard fun hidle => h (List.mem_append_right [LineState.awaiting, .receiving] hidle))

/-! ### The return to mark and the guard timer (R99) -/

/-- R99: a guard timer that is held begins to run from its full gap. -/
theorem returnToMark_held {gap : Nat} (h : (s.lineCtl l).guard = .held gap) :
    returnToMark l s = s.setLine l { s.lineCtl l with input := .mark, guard := .running gap } := by
  unfold returnToMark
  rw [State.modLine_eq, h]

/-- R99: a guard timer that is not held goes on as it is. -/
theorem returnToMark_notHeld (h : ∀ gap : Nat, (s.lineCtl l).guard ≠ .held gap) :
    returnToMark l s = s.heard l .mark := by
  unfold returnToMark
  rw [State.modLine_eq]
  split
  · exact absurd ‹_› (h _)
  · rfl

/-- R99: with its input at mark the line becomes READY. -/
theorem enterReady_mark (h : (s.lineCtl l).input = .mark) :
    enterReady l s = s.setLine l { s.lineCtl l with state := .ready, guard := .stopped } := by
  unfold enterReady
  rw [h]
  rfl

/-- With its input at space the line settles again (log 13). -/
theorem enterReady_space (h : (s.lineCtl l).input = .space) : enterReady l s = s.settledAtSpace l := by
  rw [← enterSettling_atSpace h]
  unfold enterReady
  rw [h]

theorem exec_guardExpiry (hs : (s.lineCtl l).state = .settling) (hr : (s.lineCtl l).guard.isRunning = true) :
    exec (.guardExpiry l) s = .next (enterReady l s) :=
  congrArg Host.Outcome.next (if_pos ⟨hs, hr⟩)

/-- Settles O53: each event of the receive input by the line's state, the guard timer and the level of the input. -/
theorem lineInputEvents : Obligations.LineInputEvents := by
  intro s l c gap settled atSpace
  refine ⟨fun h => ?_, fun h => ?_, fun h => ⟨?_, ?_⟩, fun h => ?_, fun h => ?_, fun g h => ?_, fun h => ?_,
    fun hs hr h => ?_, fun hs hr h => ?_⟩
  · exact congrArg Host.Outcome.next (startBit_awaiting h)
  · exact congrArg Host.Outcome.next (startBit_receiving h)
  · exact congrArg Host.Outcome.next (startBit_settles h)
  · exact congrArg Host.Outcome.next (activity_settles h)
  · exact congrArg Host.Outcome.next (startBit_heard h)
  · exact congrArg Host.Outcome.next (activity_heard h)
  · exact congrArg Host.Outcome.next (returnToMark_held h)
  · exact congrArg Host.Outcome.next (returnToMark_notHeld h)
  · rw [exec_guardExpiry hs hr, enterReady_mark h]
  · rw [exec_guardExpiry hs hr, enterReady_space h]
    rfl

end Sys2Proof.Machine
end

section
/-! Ways given up by FLUSH, FLUSH_LINE and LINE_DISABLE (R118 to R121), the sets that then serve their lookups (R116), and
FLUSH_LINE (R120). -/

namespace Sys2Proof.Machine

variable {s : State} {k : Agent} {l : Line} {n : Fin 64}

/-! ### A way given up (R118) -/

theorem giveUpWay_clean (h : (s.way n).dirty = false) : giveUpWay n s = freeWay n s := if_pos (by simp [h])

theorem giveUpWay_joins (h : (s.way n).dirty = true) (ht : s.port.takesAtOnce = true) :
    giveUpWay n s = freeWay n (listWriteBack (s.way n).key (handOver (writeBackEntry s n) s)) :=
  (if_neg (by simp [h])).trans (if_pos ht)

theorem giveUpWay_waits (h : (s.way n).dirty = true) (ht : s.port.takesAtOnce = false) :
    giveUpWay n s = (handOver (writeBackEntry s n) s).setWay n { s.way n with condition := .writing } :=
  (if_neg (by simp [h])).trans (if_neg (by simp [ht]))

theorem condition_freeWay (n : Fin 64) (s : State) : ((freeWay n s).way n).condition = .free :=
  congrArg Way.condition (State.way_setWay_self s n (s.way n).freed)

/-! ### The sets that serve their lookups (R116) -/

theorem serveFreed_free (ways : List (Fin 64)) (h : (s.way n).condition = .free) :
    serveFreed (n :: ways) s = serveFreed ways (serveFree (setOfWay n) s) := congrArg (serveFreed ways) (if_pos h)

theorem serveFreed_notFree (ways : List (Fin 64)) (h : (s.way n).condition ≠ .free) :
    serveFreed (n :: ways) s = serveFreed ways s := congrArg (serveFreed ways) (if_neg h)

/-- R119: a dirty way whose write-back joins the queue serves its set. -/
theorem serveFreed_giveUpWay_joins (h : (s.way n).dirty = true) (ht : s.port.takesAtOnce = true) :
    serveFreed [n] (giveUpWay n s) =
      serveFree (setOfWay n) (freeWay n (listWriteBack (s.way n).key (handOver (writeBackEntry s n) s))) := by
  rw [giveUpWay_joins h ht, serveFreed_free [] (condition_freeWay n _)]
  rfl

/-- R119: a dirty way whose write-back waits is WRITING, so that its set has nothing to serve. -/
theorem serveFreed_giveUpWay_waits (h : (s.way n).dirty = true) (ht : s.port.takesAtOnce = false) :
    serveFreed [n] (giveUpWay n s) =
      (handOver (writeBackEntry s n) s).setWay n { s.way n with condition := .writing } := by
  rw [giveUpWay_waits h ht, serveFreed_notFree [] (by simp)]
  rfl

/-! ### The ways of a line (R120, R121) -/

theorem mem_flushable :
    n ∈ s.flushable l ↔ (s.way n).key.line = l ∧ (s.way n).condition = .valid ∧ (s.way n).pinned = false := by
  simp [State.flushable, allWays, Way.canFlush]

theorem flushable_eq (s : State) (l : Line) : s.flushable l = (List.finRange 64).filter fun n =>
    decide ((s.way n).key.line = l ∧ (s.way n).condition = .valid ∧ (s.way n).pinned = false) := by
  refine List.filter_congr fun n _ => ?_
  rw [Way.canFlush, Bool.decide_and, Bool.decide_and, Bool.decide_eq_false]

theorem usedWays_eq (s : State) (l : Line) : s.usedWays l = ((List.finRange 64).filter fun n =>
    decide ((s.way n).key.line = l ∧
      ((s.way n).condition = .loading ∨ ((s.way n).condition = .valid ∧ (s.way n).pinned = true)))).length := by
  refine congrArg List.length (List.filter_congr fun n _ => ?_)
  rw [Bool.decide_and, Bool.decide_or, Bool.decide_and, Bool.decide_eq_true]

theorem lineWriteBacks_eq (s : State) (l : Line) : s.lineWriteBacks l =
    (s.cache.writeBacks.filter fun key => decide (key.line = l)).length + ((List.finRange 64).filter fun n =>
      decide ((s.way n).key.line = l ∧ (s.way n).condition = .writing)).length := by
  unfold State.lineWriteBacks
  simp only [Bool.decide_and]
  rfl

/-- R120, R121: the ways of the line have been given up, one after another. -/
def State.gaveUp (s : State) (l : Line) : State := (s.flushable l).foldl (fun t n => giveUpWay n t) s

theorem gaveUp_eq (s : State) (l : Line) : s.gaveUp l = ((List.finRange 64).filter fun n =>
    decide ((s.way n).key.line = l ∧ (s.way n).condition = .valid ∧ (s.way n).pinned = false)).foldl
      (fun t n => giveUpWay n t) s := by rw [State.gaveUp, flushable_eq]

/-! ### FLUSH_LINE (R120) -/

theorem exec_flushLine (h : s.Accepts k flushLineCode) :
    exec (.flushLine k l) s = .next (flushLineFor k l (s.taken k (wordOf flushLineCode l 0 0))) :=
  congrArg Host.Outcome.next (takeWord_accepted _ h (show flushLineCode ≠ resetCode by decide))

theorem flushLineFor_done (h : (s.gaveUp l).lineWriteBacks l = 0) : flushLineFor k l s =
    serveFreed (s.flushable l) (postVerdict k .done (BitVec.ofNat 16 (s.usedWays l)) (s.gaveUp l)) :=
  congrArg (serveFreed (s.flushable l)) (if_pos h)

theorem flushLineFor_waits (h : (s.gaveUp l).lineWriteBacks l ≠ 0) : flushLineFor k l s =
    serveFreed (s.flushable l) (postPending k ((s.gaveUp l).modBank k fun b =>
      { b with flushWait := .line l ((s.gaveUp l).lineWriteBacks l) (s.usedWays l) })) :=
  congrArg (serveFreed (s.flushable l)) (if_neg h)

/-- Settles O44: FLUSH_LINE by the write-backs that are left, a way given up by its copy, and the service of a set. -/
theorem flushLineGivesUpWays : Obligations.FlushLineGivesUpWays := by
  refine ⟨fun s k l h => ?_, fun s l n => ⟨mem_flushable, giveUpWay_clean, giveUpWay_joins, giveUpWay_waits⟩,
    fun s n ways => ⟨rfl, serveFreed_free ways, serveFreed_notFree ways⟩,
    fun s i => ⟨serveStall_nil, fun _ _ => serveStall_cons, rfl⟩⟩
  intro ways counted t left
  have hways : (s.taken k (wordOf flushLineCode l 0 0)).flushable l = ways := flushable_eq s l
  have hcounted : (s.taken k (wordOf flushLineCode l 0 0)).usedWays l = counted := usedWays_eq s l
  have ht : (s.taken k (wordOf flushLineCode l 0 0)).gaveUp l = t := gaveUp_eq _ l
  have hleft : t.lineWriteBacks l = left := lineWriteBacks_eq t l
  rw [exec_flushLine h]
  refine ⟨fun h0 => ?_, fun h0 => ?_⟩
  · rw [flushLineFor_done (by rw [ht, hleft, h0]), hways, hcounted, ht]
  · rw [flushLineFor_waits (by rwa [ht, hleft]), hways, hcounted, ht, hleft]

end Sys2Proof.Machine
end

section
/-! FLUSH (R119). -/

namespace Sys2Proof.Machine

variable {s : State} {k : Agent} {l : Line} {a : Byte} {n : Fin 64} {key : Key}

/-! ### The command and its station address -/

theorem exec_flush (h : s.Accepts k flushCode) :
    exec (.flush k l a) s = .next (flushCommand k l a (s.taken k (wordOf flushCode l a 0))) :=
  congrArg Host.Outcome.next (takeWord_accepted _ h (show flushCode ≠ resetCode by decide))

theorem isStation_iff (a : Byte) : isStation a = true ↔ a ≠ 0 ∧ a.toNat ≤ 250 := by
  have hzero : 1 ≤ a.toNat ↔ a ≠ 0 := by bv_omega
  rw [isStation, Bool.and_eq_true, decide_eq_true_iff, decide_eq_true_iff, hzero]

theorem flushCommand_outOfRange (h : a = 0 ∨ 250 < a.toNat) :
    flushCommand k l a s = postVerdict k .invalidArgument 0 s := by
  refine if_pos ?_
  rw [Bool.not_eq_true', Bool.eq_false_iff, ne_eq, isStation_iff]
  rintro ⟨h0, hle⟩
  exact h.elim h0 (Nat.not_lt.mpr hle)

theorem flushCommand_inRange (h0 : a ≠ 0) (h : a.toNat ≤ 250) :
    flushCommand k l a s = flushStation k { line := l, station := a } s :=
  if_neg (by simp [(isStation_iff a).mpr ⟨h0, h⟩])

/-! ### The condition of the entry -/

/-- R119: agent `k`'s FLUSH waits for the answers of these write-backs. -/
abbrev State.flushWaits (s : State) (k : Agent) (wait : FlushWait) : State :=
  postPending k (s.modBank k fun b => { b with flushWait := wait })

theorem flushWaits_taken (s : State) (k : Agent) (w : CommandWord) (wait : FlushWait) :
    (s.taken k w).flushWaits k wait = (s.inProgress k w).modBank k fun b => { b with flushWait := wait } := by
  rw [← postPending_taken]
  simp only [State.flushWaits, postPending, State.modBank_eq, setBank_setBank, State.bank_setBank_self]
  rfl

theorem flushStation_pinned (h : s.findWay .valid key = some n) (hp : (s.way n).pinned = true) :
    flushStation k key s = postVerdict k .busy 0 s := by
  unfold flushStation
  rw [h]
  exact if_pos hp

theorem flushStation_clean (h : s.findWay .valid key = some n) (hp : (s.way n).pinned = false)
    (hd : (s.way n).dirty = false) :
    flushStation k key s = serveFree (setOfWay n) (postVerdict k .done 1 (freeWay n s)) := by
  unfold flushStation
  rw [h]
  exact (if_neg (by simp [hp])).trans (if_pos (by simp [hd]))

theorem flushStation_dirty (h : s.findWay .valid key = some n) (hp : (s.way n).pinned = false)
    (hd : (s.way n).dirty = true) :
    flushStation k key s =
      serveFreed [n] (giveUpWay n (s.flushWaits k (.station key true (s.keyWriteBacks key + 1)))) := by
  unfold flushStation
  rw [h]
  exact (if_neg (by simp [hp])).trans (if_neg (by simp [hd]))

theorem flushStation_loading (h : s.findWay .valid key = none) (hl : s.findWay .loading key ≠ none) :
    flushStation k key s = postVerdict k .busy 0 s := by
  unfold flushStation
  rw [h]
  exact if_pos (Option.isSome_iff_ne_none.mpr hl)

/-- With no entry, no load and no WRITING way FLUSH waits for the write-backs of the key that are on the list. -/
theorem flushStation_listed (h : s.findWay .valid key = none) (hl : s.findWay .loading key = none)
    (hw : s.findWay .writing key = none) :
    (s.keyWriteBacks key = 0 → flushStation k key s = postVerdict k .done 0 s) ∧
      (s.keyWriteBacks key ≠ 0 → flushStation k key s = s.flushWaits k (.station key false (s.keyWriteBacks key))) := by
  unfold flushStation
  rw [h, hl, hw]
  exact ⟨fun h0 => if_pos h0, fun h0 => if_neg h0⟩

/-- A WRITING way is one write-back more to wait for. -/
theorem flushStation_writing (h : s.findWay .valid key = none) (hl : s.findWay .loading key = none)
    (hw : s.findWay .writing key ≠ none) :
    flushStation k key s = s.flushWaits k (.station key false (s.keyWriteBacks key + 1)) := by
  unfold flushStation
  rw [h, hl, if_pos (Option.isSome_iff_ne_none.mpr hw)]
  rfl

theorem way_of_findWay {c : WayCondition} (h : s.findWay c key = some n) :
    (s.way n).condition = c ∧ (s.way n).key = key := by
  simpa using List.find?_some h

theorem writeBackEntry_eq (h : (s.way n).key = key) : writeBackEntry s n =
    { addr := stationAddr (s.driver key.line).setup.tableBase key.station, data := (s.way n).copy.bytes,
      agent := (s.way n).copy.owner.getD 0, writer := .cache, op := .writeBack key } := by
  subst h
  rfl

/-- Settles O43: FLUSH by its address, then by the condition of the station's entry. -/
theorem flushGivesUpStation : Obligations.FlushGivesUpStation := by
  intro s k l a h key own waiting
  let t := s.taken k (wordOf flushCode l a 0)
  have hwaiting (wait : FlushWait) : t.flushWaits k wait = waiting wait := flushWaits_taken s k _ wait
  refine ⟨fun ha => ?_, fun h0 hle => ?_⟩
  · rw [exec_flush h, flushCommand_outOfRange ha, postVerdict_taken]
    rfl
  have hexec : exec (.flush k l a) s = .next (flushStation k key t) :=
    (exec_flush h).trans (congrArg Host.Outcome.next (flushCommand_inRange h0 hle))
  rw [hexec]
  refine ⟨fun n (hn : t.findWay .valid key = some n) => ?_, fun (hn : t.findWay .valid key = none) =>
    ⟨fun (hl : t.findWay .loading key ≠ none) => ?_, fun (hl : t.findWay .loading key = none) => ?_⟩⟩
  · intro way out
    let u := waiting (.station key true (own + 1))
    have hkey : (u.way n).key = key := (way_of_findWay hn).2
    have hentry := writeBackEntry_eq hkey
    have hout : handOver (writeBackEntry u n) u = out := congrArg (handOver · u) hentry
    have hdirty (hp : way.pinned = false) (hd : way.dirty = true) : flushStation k key t = serveFreed [n] (giveUpWay n u) := by
      rw [flushStation_dirty hn hp hd, hwaiting]
      rfl
    refine ⟨fun hp => ?_, fun hp hd => ?_, fun hp hd ht => ?_, fun hp hd ht => ?_⟩
    · rw [flushStation_pinned hn hp, postVerdict_taken]
      rfl
    · rw [flushStation_clean hn hp hd]
      exact congrArg (fun u => Host.Outcome.next (serveFree (setOfWay n) u)) (postVerdict_taken (freeWay n s) k _ _ _)
    · rw [hdirty hp hd, serveFreed_giveUpWay_joins (s := u) hd ht, hout, hkey]
    · rw [hdirty hp hd, serveFreed_giveUpWay_waits (s := u) hd ht, hout]
      rfl
  · rw [flushStation_loading hn hl, postVerdict_taken]
    rfl
  · refine ⟨fun (hw : t.findWay .writing key = none) ho => ?_, fun (hw : t.findWay .writing key = none) ho => ?_,
      fun (hw : t.findWay .writing key ≠ none) => ?_⟩
    · rw [(flushStation_listed hn hl hw).1 ho, postVerdict_taken]
      rfl
    · rw [(flushStation_listed hn hl hw).2 ho, hwaiting]
      rfl
    · rw [flushStation_writing hn hl hw, hwaiting]
      rfl

end Sys2Proof.Machine
end

section
/-! The answers to write-backs (R118 to R120), and the cache's part of LINE_DISABLE (R121, R137). -/

namespace Sys2Proof.Machine

variable {s : State} {l : Line} {key : Key}

/-! ### A flush that waits for write-backs (R119, R120) -/

section

variable {b : Bank} {own : Bool} {left counted : Nat}

/-- R119, R120: the verdict of a flush at the answer to its last write-back. -/
def Bank.flushEnded (b : Bank) (value : Half) : Bank :=
  { b with command := none, verdict := { code := .done, value := value, command := b.commandCode }, flushWait := .none }

theorem flushAnswered_other (accepted : Bool) (hs : ∀ own left, b.flushWait ≠ .station key own left)
    (hl : ∀ left counted, b.flushWait ≠ .line key.line left counted) : b.flushAnswered key accepted = b := by
  unfold Bank.flushAnswered
  split
  · rfl
  next k own left h =>
    refine if_neg ?_
    rintro rfl
    exact hs own left h
  next l left counted h =>
    refine if_neg ?_
    rintro rfl
    exact hl left counted h

theorem flushAnswered_station (accepted : Bool) (h : b.flushWait = .station key own left) :
    (1 < left → b.flushAnswered key accepted = { b with flushWait := .station key own (left - 1) }) ∧
      (left ≤ 1 → b.flushAnswered key accepted = b.flushEnded (if own then (if accepted then 2 else 3) else 0)) := by
  unfold Bank.flushAnswered
  rw [h]
  exact ⟨fun hlt => (if_pos rfl).trans (if_neg (Nat.not_le.mpr hlt)), fun hle => (if_pos rfl).trans (if_pos hle)⟩

theorem flushAnswered_line (accepted : Bool) (h : b.flushWait = .line key.line left counted) :
    (1 < left → b.flushAnswered key accepted = { b with flushWait := .line key.line (left - 1) counted }) ∧
      (left ≤ 1 → b.flushAnswered key accepted = b.flushEnded (BitVec.ofNat 16 counted)) := by
  unfold Bank.flushAnswered
  rw [h]
  exact ⟨fun hlt => (if_pos rfl).trans (if_neg (Nat.not_le.mpr hlt)), fun hle => (if_pos rfl).trans (if_pos hle)⟩

end

/-- Banks changed one after another, each once. -/
theorem bank_foldl_modBank (f : Bank → Bank) {agents : List Agent} (hn : agents.Nodup) (k : Agent) (s : State) :
    (agents.foldl (fun t j => t.modBank j f) s).bank k = if k ∈ agents then f (s.bank k) else s.bank k := by
  induction agents generalizing s with
  | nil => rfl
  | cons j agents ih =>
    obtain ⟨hj, hn⟩ := List.nodup_cons.mp hn
    rw [List.foldl_cons, ih hn, State.modBank_eq, State.bank_setBank]
    by_cases h : k = j
    · subst h
      simp [hj]
    · simp [h]

/-! ### The answer to a write-back (R118) -/

/-- R118 to R120: what the answer to a write-back does before a LINE_DISABLE goes on with it. -/
def State.writeBackEnded (s : State) (key : Key) (k : Agent) (a : WriteAnswer) : State :=
  allFour.foldl (fun t j => t.modBank j (·.flushAnswered key (acceptedBy a)))
    ((s.setCache { s.cache with writeBacks := s.cache.writeBacks.erase key }).logReject a .writebackLost key.line key.station k)

theorem writeBackAnswered_eq (key : Key) (k : Agent) (a : WriteAnswer) (s : State) :
    writeBackAnswered key k (acceptedBy a) s = advanceDisable key.line (s.writeBackEnded key k a) := by
  cases a <;> rfl

theorem exec_writebackAnswer {e : WriteEntry} {a : WriteAnswer} (hw : s.Writing e) (ho : e.op = .writeBack key) :
    exec (.writebackAnswer a) s = .next (advanceDisable key.line (s.afterWrite.writeBackEnded key e.agent a)) := by
  refine congrArg Host.Outcome.next ?_
  rw [answerWrite_writing _ a hw (by rw [ho]; rfl)]
  unfold deliverWrite
  rw [ho]
  exact writeBackAnswered_eq key e.agent a s.afterWrite

theorem logReject_moves (a : WriteAnswer) (kind : FaultKind) (l : Line) (place : Byte) (k : Agent) (s : State) :
    Moves [.log] s (s.logReject a kind l place k) := by
  cases a with
  | accept => exact .refl
  | reject => exact .one (.log _)

theorem foldl_modBank_moves (f : Bank → Bank) (agents : List Agent) (s : State) :
    Moves [.bank] s (agents.foldl (fun t j => t.modBank j f) s) :=
  Moves.foldl _ _ _ fun t k _ => modBank_moves k f t

theorem writeBackEnded_moves (s : State) (key : Key) (k : Agent) (a : WriteAnswer) :
    Moves [.cache, .log, .bank] s (s.writeBackEnded key k a) :=
  ((Moves.refl.via (setCache_moves _ s)).via (logReject_moves a _ _ _ k _)).via (foldl_modBank_moves _ _ _)

theorem cache_writeBackEnded (s : State) (key : Key) (k : Agent) (a : WriteAnswer) :
    (s.writeBackEnded key k a).cache = { s.cache with writeBacks := s.cache.writeBacks.erase key } :=
  ((foldl_modBank_moves _ _ _).cache_eq).trans ((logReject_moves _ _ _ _ _ _).cache_eq)

theorem log_writeBackEnded (s : State) (key : Key) (k : Agent) (a : WriteAnswer) :
    (s.writeBackEnded key k a).log = (s.logReject a .writebackLost key.line key.station k).log := by
  refine ((foldl_modBank_moves _ _ _).log_eq).trans ?_
  cases a <;> rfl

theorem bank_writeBackEnded (s : State) (key : Key) (k j : Agent) (a : WriteAnswer) :
    (s.writeBackEnded key k a).bank j = (s.bank j).flushAnswered key (acceptedBy a) := by
  have hmem : j ∈ allFour := by revert j; decide
  refine (bank_foldl_modBank _ (by decide) j _).trans ((if_pos hmem).trans ?_)
  cases a <;> rfl

/-! ### A LINE_DISABLE in WRITING_BACK (R121, R137) -/

theorem loadsOf_iff : s.loadsOf l = true ↔ ∃ n : Fin 64, ((s.way n).condition = .loading ∧ (s.way n).key.line = l) ∨
    ((s.way n).condition = .writing ∧ ∃ key : Key, (s.way n).reserved = some key ∧ key.line = l) := by
  unfold State.loadsOf allWays
  rw [List.any_eq_true]
  refine exists_congr fun n => ?_
  cases (s.way n).reserved <;> simp

theorem advanceDisable_waits (h : (s.driver l).disable ≠ .writingBack ∨ s.loadsOf l = true) : advanceDisable l s = s :=
  if_pos h

/-- R121: all that a LINE_DISABLE can give up has been given up, and the sets it freed have served their lookups. -/
def State.clearedOf (s : State) (l : Line) : State := serveFreed (s.flushable l) (s.gaveUp l)

theorem advanceDisable_left (h : (s.driver l).disable = .writingBack) (hl : s.loadsOf l = false)
    (hw : (s.clearedOf l).lineWriteBacks l ≠ 0) : advanceDisable l s = s.clearedOf l :=
  (if_neg (by simp [h, hl])).trans (if_neg hw)

theorem advanceDisable_ends (h : (s.driver l).disable = .writingBack) (hl : s.loadsOf l = false)
    (hw : (s.clearedOf l).lineWriteBacks l = 0) : advanceDisable l s = handOver (epochsEntry (s.clearedOf l) l)
      ((s.clearedOf l).setDriver l { (s.clearedOf l).driver l with disable := .writingEpochs }) :=
  (if_neg (by simp [h, hl])).trans (if_pos hw)

theorem clearedOf_nil (h : s.flushable l = []) : s.clearedOf l = s := by
  rw [State.clearedOf, State.gaveUp, h]
  rfl

/-- Settles O42: the answer by what each agent waits for, and a LINE_DISABLE by what is left of its line. -/
theorem writebackAnswered : Obligations.WritebackAnswered := by
  refine ⟨fun s e key a hw ho => ?_, fun s l h hl hf => ?_, fun s l => ?_⟩
  · intro u done
    have hm := writeBackEnded_moves u key e.agent a
    have hbank := bank_writeBackEnded u key e.agent (a := a)
    refine ⟨u.writeBackEnded key e.agent a, exec_writebackAnswer hw ho, fun hd => ?_, cache_writeBackEnded u key e.agent a,
      log_writeBackEnded u key e.agent a, fun k own left counted => ?_, fun k hs hl => ?_, hm.plans_eq, hm.backlog_eq,
      hm.scheds_eq, hm.walks_eq, hm.exchs_eq, hm.lines_eq, hm.drivers_eq, hm.alarms_eq, hm.port_eq, hm.pending_eq,
      hm.partState_eq, hm.workBase_eq⟩
    · refine advanceDisable_waits (.inl ?_)
      rwa [State.driver, hm.drivers_eq]
    · rw [hbank]
      refine ⟨fun h => flushAnswered_other _ (by simp [h]) (by simp [h]), fun h => (flushAnswered_station _ h).1,
        fun h hle => ?_, fun h => (flushAnswered_line _ h).1, fun h => (flushAnswered_line _ h).2⟩
      rw [(flushAnswered_station _ h).2 hle]
      cases a <;> rfl
    · exact (hbank k).trans (flushAnswered_other _ hs hl)
  · have hc := clearedOf_nil hf
    refine ⟨fun hw => ?_, fun hw => ?_⟩
    · rw [advanceDisable_ends h hl (by rwa [hc]), hc]
      rfl
    · rw [advanceDisable_left h hl (by rwa [hc]), hc]
  · intro loads ways t left
    have hloads : s.loadsOf l = true ↔ loads := loadsOf_iff
    have ht : s.clearedOf l = t := by rw [State.clearedOf, gaveUp_eq, flushable_eq]
    have hleft : t.lineWriteBacks l = left := lineWriteBacks_eq t l
    have hnone (hn : ¬loads) : s.loadsOf l = false := Bool.eq_false_iff.mpr (mt hloads.mp hn)
    refine ⟨fun h => advanceDisable_waits (h.imp_right hloads.mpr), fun h hn hw => ?_, fun h hn hw => ?_⟩
    · rw [advanceDisable_left h (hnone hn) (by rwa [ht, hleft]), ht]
    · rw [advanceDisable_ends h (hnone hn) (by rw [ht, hleft, hw]), ht]
      rfl

end Sys2Proof.Machine
end

section
/-! The answer to a station record load (R111, R112), and what follows for the exchange its entry is pinned for (R66 to R68,
R107). -/

namespace Sys2Proof.Machine

variable {s : State} {l : Line} {n : Fin 64} {key : Key} {k : Agent} {data : List Byte}

/-! ### Ways found by their key (R110) -/

/-- A way is found by its condition and its key alone. -/
theorem findWay_setWay {w : Way} (hc : w.condition = (s.way n).condition) (hk : w.key = (s.way n).key) (c : WayCondition)
    (key : Key) : (s.setWay n w).findWay c key = s.findWay c key := by
  have hway (m : Fin 64) :
      ((s.setWay n w).way m).condition = (s.way m).condition ∧ ((s.setWay n w).way m).key = (s.way m).key := by
    rw [State.way_setWay]
    split
    next h => exact h ▸ ⟨hc, hk⟩
    next => exact ⟨rfl, rfl⟩
  unfold State.findWay
  simp only [hway]

theorem setWay_setWay (s : State) (n : Fin 64) (x y : Way) : (s.setWay n x).setWay n y = s.setWay n y := by
  simp only [State.setWay_eq, State.cache_setCache, upd_upd]
  rfl

/-! ### The entry is pinned (R67, R68, R107) -/

/-- R107: the copy of an entry drained up to this epoch, and back in service at the release level. -/
def StationRecord.drained (c : StationRecord) (d : Driver) : StationRecord :=
  let level := c.bucket - min c.bucket (d.drainEpoch - c.drainMark).toNat
  { c with bucket := level, drainMark := d.drainEpoch,
           state := if c.state = .quarantined ∧ level ≤ d.setup.releaseLevel then .inService else c.state }

/-- R66, R107: way `n` is pinned for the exchange of line `l`, its copy drained. -/
def State.pinned (s : State) (l : Line) (n : Fin 64) : State :=
  let c := (s.way n).copy
  let d := c.drained (s.driver l)
  s.setWay n { s.way n with pinned := true, copy := d, dirty := (s.way n).dirty || decide (d ≠ c) }

/-- R66: an exchange that holds the entry of its station. -/
abbrev Exchange.holding (e : Exchange) : Exchange := { e with phase := .preparing, lookup := .none, entryHeld := true }

/-- The exchange holds the entry of its station once it says so. -/
theorem heldWay_setExch {w : Way} {e : Exchange} (h : s.findWay .valid (s.exchKey l) = some n)
    (hc : w.condition = (s.way n).condition) (hk : w.key = (s.way n).key) (hs : e.station = (s.exch l).station)
    (he : e.entryHeld = true) : ((s.setWay n w).setExch l e).heldWay l = some n := by
  have hexch : ((s.setWay n w).setExch l e).exch l = e := State.exch_setExch_self _ l e
  have hkey : ((s.setWay n w).setExch l e).exchKey l = s.exchKey l := by rw [State.exchKey, hexch, hs, State.exchKey]
  rw [heldWay_entryHeld (by rw [hexch, he]), hkey]
  exact (findWay_setWay hc hk _ _).trans h

theorem pinFor_eq (h : s.findWay .valid (s.exchKey l) = some n) :
    let d := (s.way n).copy.drained (s.driver l)
    (d.state = .quarantined →
      pinFor l n s = enterResolving l .quarantined ((s.pinned l n).setExch l (s.exch l).holding)) ∧
    (d.state ≠ .quarantined → pinFor l n s = fetchPayload l ((s.pinned l n).setExch l
      ((s.exch l).holding.fixFrom d (s.driver l).setup.retryLimit (s.driver l).powerEpoch))) := by
  intro d
  let p := (s.setWay n { s.way n with pinned := true }).setExch l (s.exch l).holding
  let q := (s.pinned l n).setExch l (s.exch l).holding
  have hp : p.heldWay l = some n := heldWay_setExch h rfl rfl rfl rfl
  have hq : q.heldWay l = some n := heldWay_setExch h rfl rfl rfl rfl
  have hway : p.way n = { s.way n with pinned := true } := State.way_setWay_self s n _
  have hchange : changeEntry l (·.drain (s.driver l).drainEpoch (s.driver l).setup.releaseLevel) p = q := by
    rw [changeEntry_held hp, hway]
    exact congrArg (State.setExch · l _) (setWay_setWay s n _ _)
  have hcopy : q.heldCopy l = some d :=
    (heldCopy_some hq).trans (congrArg (some ·.copy) (State.way_setWay_self s n _))
  have hpin : pinFor l n s = afterPinned l p := rfl
  rw [hpin]
  unfold afterPinned
  dsimp only
  rw [show p.driver l = s.driver l from rfl, hchange, hcopy]
  refine ⟨fun hquarantined => if_pos hquarantined, fun hprepares => (if_neg hprepares).trans ?_⟩
  rw [State.modExch_eq, State.exch_setExch_self, State.setExch_setExch]

theorem trusted_iff (c : StationRecord) (epoch : Word) :
    c.trusted epoch = true ↔ c.toggleKnown = true ∧ c.toggleEpoch = epoch := by
  rw [StationRecord.trusted, Bool.and_eq_true, decide_eq_true_iff]

/-- R107: a drain makes no station ABSENT, and none that was ABSENT anything else. -/
theorem state_drained_absent (c : StationRecord) (d : Driver) : (c.drained d).state = .absent ↔ c.state = .absent := by
  unfold StationRecord.drained
  dsimp only
  split
  next h => simp [h.1]
  next => rfl

/-- R67: the values fixed for the exchange are those of the copy before the drain. -/
theorem fixFrom_drained (e : Exchange) (c : StationRecord) (d : Driver) :
    let trusted := c.toggleKnown = true ∧ c.toggleEpoch = d.powerEpoch
    e.fixFrom (c.drained d) d.setup.retryLimit d.powerEpoch = { e with
      allowance := if c.state = .absent then 1 else 1 + d.setup.retryLimit,
      sentToggle := if trusted then !c.toggle else false, fresh := decide ¬trusted, wakeLead := c.wakeLead.toNat } := by
  intro trusted
  have htrusted : (c.drained d).trusted d.powerEpoch = decide trusted := by
    rw [Bool.eq_iff_iff, decide_eq_true_iff]
    exact trusted_iff c d.powerEpoch
  unfold Exchange.fixFrom
  simp only [htrusted, state_drained_absent, decide_not]
  by_cases h : trusted
  · simp only [h, decide_true, if_true]
    rfl
  · simp only [h, decide_false, if_false]
    rfl

theorem fetchPayload_none (h : (s.walk l).copy.requestLength = 0) :
    fetchPayload l s = s.setExch l { s.exch l with phase := .budgetWait, txBuffer := [] } := if_pos h

theorem fetchPayload_asks (h : (s.walk l).copy.requestLength ≠ 0) :
    fetchPayload l s = askRead
      { addr := (s.walk l).copy.requestAddr, length := (s.walk l).copy.requestLength,
        agent := (s.plan (s.walk l).holder).agent, requester := .engine l, op := .payload l, live := true } s := if_neg h

/-! ### The record of a load (R106, R111, R112) -/

theorem stationStateOf_eq_none (b : Byte) : stationStateOf b = none ↔ 3 < b.toNat := by
  unfold stationStateOf
  by_cases h0 : b = 0
  · subst h0
    decide
  by_cases h1 : b = 1
  · subst h1
    decide
  by_cases h2 : b = 2
  · subst h2
    decide
  by_cases h3 : b = 3
  · subst h3
    decide
  have hlt : 3 < b.toNat := by bv_omega
  rw [if_neg h0, if_neg h1, if_neg h2, if_neg h3]
  exact iff_of_true rfl hlt

theorem usableRecord_eq_none {a : Byte} : usableRecord data a = none ↔
    byteAt data 0 ≠ a ∨ 3 < (byteAt data 1).toNat ∨ 15 < (byteAt data 0xC).toNat := by
  unfold usableRecord
  by_cases ha : byteAt data 0 = a
  · rw [if_neg (not_not_intro ha), ← stationStateOf_eq_none]
    cases stationStateOf (byteAt data 1) with
    | none => simp
    | some st => simp [ha]
  · simp [ha]

theorem usableRecord_eq_some {st : StationState} {a : Byte} (ha : byteAt data 0 = a)
    (hs : stationStateOf (byteAt data 1) = some st) (hb : (byteAt data 0xC).toNat ≤ 15) :
    usableRecord data a = some (stationRecordOf data st) := by
  unfold usableRecord
  rw [if_neg (not_not_intro ha), hs]
  exact if_neg (Nat.not_lt.mpr hb)

/-- R106, R112: the copy of a record loaded: an owner that fails its test is put right, and a station at or below the release
level is back in service. -/
theorem loadedCopy_eq (data : List Byte) (r : StationRecord) (releaseLevel : Nat) :
    let agrees := ownerByteAgrees (byteAt data 3) r.ownerCheck
    loadedCopy data r releaseLevel = ({ (if agrees then r else { r with owner := none, ownerCheck := true }) with
      state := if r.state = .quarantined ∧ r.bucket ≤ releaseLevel then .inService else r.state }, !agrees) := by
  unfold loadedCopy
  dsimp only
  cases ownerByteAgrees (byteAt data 3) r.ownerCheck <;> rfl

/-! ### The answer to a load (R111, R112, R121) -/

theorem exec_stationLoadAnswer {r : ReadRequest} {a : ReadAnswer} (hr : s.Reading r) (ho : r.op = .station key)
    (hl : a.hasLength r.length = true) :
    exec (.stationLoadAnswer a) s = .next (stationLoadAnswered key r.agent a s.afterRead) := by
  refine congrArg Host.Outcome.next ?_
  rw [answerRead_reading _ a hr (by rw [ho]; rfl) hl]
  unfold deliverRead
  rw [hr.2, ho]
  rfl

theorem stationLoadAnswered_unusable {a : ReadAnswer} (h : s.findWay .loading key = some n)
    (ha : a = .reject ∨ ∃ data : List Byte, a = .accept data ∧ usableRecord data key.station = none) :
    stationLoadAnswered key k a s = advanceDisable key.line (loadUnusable n key s) := by
  unfold stationLoadAnswered
  rw [h]
  obtain rfl | ⟨data, rfl, hd⟩ := ha
  · rfl
  · simp only [hd]

theorem stationLoadAnswered_usable {r : StationRecord} (h : s.findWay .loading key = some n)
    (hd : usableRecord data key.station = some r) :
    stationLoadAnswered key k (.accept data) s = advanceDisable key.line (loadUsable n key k data r s) := by
  unfold stationLoadAnswered
  rw [h]
  simp only [hd]

theorem awaitsLoad_iff (s : State) (key : Key) : s.awaitsLoad key = true ↔
    (s.exch key.line).lookup = .load ∧ (s.exch key.line).station = key.station := by
  rw [State.awaitsLoad, Bool.and_eq_true, decide_eq_true_iff, decide_eq_true_iff]

theorem loadUnusable_awaited (h : s.awaitsLoad key = true) :
    loadUnusable n key s = serveFree (setOfWay n) (recordInvalid key.line (freeWay n s)) :=
  congrArg (serveFree (setOfWay n)) (if_pos h)

theorem loadUnusable_notAwaited (h : ¬s.awaitsLoad key = true) :
    loadUnusable n key s = serveFree (setOfWay n) (freeWay n s) :=
  congrArg (serveFree (setOfWay n)) (if_neg h)

/-- R112: way `n` is VALID with the copy `c.1` of the record `r`; an owner that failed its test is in the Fault Log. -/
def State.recordLoaded (s : State) (n : Fin 64) (key : Key) (k : Agent) (r : StationRecord) (c : StationRecord × Bool) :
    State :=
  (if c.2 then recordFault .contextCheck key.line key.station k s else s).setWay n
    { s.way n with condition := .valid, copy := c.1, dirty := c.2 || decide (c.1.state ≠ r.state) }

theorem awaitsLoad_recordLoaded (n : Fin 64) (key : Key) (k : Agent) (r : StationRecord) (c : StationRecord × Bool)
    (s : State) : (s.recordLoaded n key k r c).awaitsLoad key = s.awaitsLoad key := by
  obtain ⟨copy, failed⟩ := c
  cases failed <;> rfl

theorem loadUsable_eq (n : Fin 64) (key : Key) (k : Agent) (data : List Byte) (r : StationRecord) (s : State) :
    let t := s.recordLoaded n key k r (loadedCopy data r (s.driver key.line).setup.releaseLevel)
    loadUsable n key k data r s = if s.awaitsLoad key then pinFor key.line n t
      else serveStall (setOfWay n) (t.modWay n fun w => { w with pinned := false }) := by
  unfold loadUsable
  generalize loadedCopy data r (s.driver key.line).setup.releaseLevel = c
  intro t
  rw [← awaitsLoad_recordLoaded n key k r c]
  obtain ⟨copy, failed⟩ := c
  cases failed <;> rfl

theorem recordLoaded_mk (n : Fin 64) (key : Key) (k : Agent) (r copy : StationRecord) (agrees : Bool) (s : State) :
    s.recordLoaded n key k r (copy, !agrees) =
      (if agrees then s else s.setLog (s.log.record .contextCheck key.line key.station k)).setWay n
        { s.way n with condition := .valid, copy := copy, dirty := !agrees || decide (copy.state ≠ r.state) } := by
  cases agrees <;> rfl

/-- R121: after the answer a LINE_DISABLE in WRITING_BACK goes on; there is none where the disable state is another. -/
theorem advanceDisable_next {t : State} {a : ReadAnswer} (hd : t.drivers = s.drivers)
    (h : exec (.stationLoadAnswer a) s = .next (advanceDisable l t)) :
    exec (.stationLoadAnswer a) s = .next (advanceDisable l t) ∧
      ((s.driver l).disable ≠ .writingBack → exec (.stationLoadAnswer a) s = .next t) := by
  refine ⟨h, fun hne => h.trans (congrArg Host.Outcome.next (advanceDisable_waits (.inl ?_)))⟩
  rwa [State.driver, hd]

end Sys2Proof.Machine

namespace Sys2Proof

open Machine

/-- Settles O41: the answer by the record and by whether it is awaited, the entry pinned by its state after the drain. -/
theorem stationLoadAnswered : Obligations.StationLoadAnswered := by
  refine ⟨fun s r key n a hr ho hl hn => ?_, fun s l n hn => ?_, fun s l => ⟨rfl, fetchPayload_none, fetchPayload_asks⟩⟩
  · intro u l answers awaited
    have hexec := exec_stationLoadAnswer hr ho hl
    have hawaited : u.awaitsLoad key = true ↔ awaited := awaitsLoad_iff u key
    refine ⟨fun ha => ?_, fun data st ha haddr hst hbucket => ?_⟩
    · have hunusable : a = .reject ∨ ∃ data : List Byte, a = .accept data ∧ usableRecord data key.station = none :=
        ha.imp_right fun ⟨data, hd, h⟩ => ⟨data, hd, usableRecord_eq_none.mpr h⟩
      rw [stationLoadAnswered_unusable (s := u) hn hunusable] at hexec
      have hdrivers := (loadUnusable_moves n key u).drivers_eq
      refine ⟨fun hw => ?_, fun hw => ?_⟩
      · rw [loadUnusable_notAwaited (mt hawaited.mp hw)] at hexec hdrivers
        exact advanceDisable_next hdrivers hexec
      · rw [loadUnusable_awaited (hawaited.mpr hw)] at hexec hdrivers
        exact advanceDisable_next hdrivers hexec
    · subst ha
      intro loaded agrees state copy t
      have husable := usableRecord_eq_some haddr hst hbucket
      rw [stationLoadAnswered_usable (s := u) hn husable] at hexec
      have hdrivers := (loadUsable_moves n key r.agent data loaded u (bucket_usableRecord husable)).drivers_eq
      have ht : u.recordLoaded n key r.agent loaded
          (loadedCopy data loaded (u.driver key.line).setup.releaseLevel) = t := by
        rw [loadedCopy_eq, recordLoaded_mk]
        rfl
      rw [loadUsable_eq, ht] at hexec hdrivers
      refine ⟨fun hw => ?_, fun hw => ?_⟩
      · rw [if_pos (hawaited.mpr hw)] at hexec hdrivers
        exact advanceDisable_next hdrivers hexec
      · rw [if_neg (mt hawaited.mp hw)] at hexec hdrivers
        exact advanceDisable_next hdrivers hexec
  · intro d e way c level drained trusted pinned held
    obtain ⟨hquarantined, hprepares⟩ := pinFor_eq hn
    refine ⟨hquarantined, fun h => ?_⟩
    rw [hprepares h, fixFrom_drained]
    rfl

end Sys2Proof
end

section
/-! Lookups (R110), the way a new key takes (R111, R113, R114), and a write-back that waited and enters the posting queue (R114,
R116, R118). -/

namespace Sys2Proof.Machine

variable {s : State} {l : Line} {n : Fin 64} {k key : Key} {i : SetIndex} {agent : Agent}

/-! ### The row of a lookup (R110) -/

/-- R110: a WRITING way of the key's set is reserved for the key. -/
abbrev State.ReservedFor (s : State) (k : Key) : Prop :=
  ∃ n ∈ waysOf (setOf k), (s.way n).condition = .writing ∧ (s.way n).reserved = some k

/-- R110: rows 1 to 3 do not apply to the key. -/
abbrev State.Absent (s : State) (k : Key) : Prop :=
  s.findWay .valid k = none ∧ s.findWay .loading k = none ∧ ¬s.ReservedFor k ∧ s.findWay .writing k = none

/-- R110: the key's set has no FREE way. -/
abbrev State.NoneFree (s : State) (i : SetIndex) : Prop := ∀ n ∈ waysOf i, (s.way n).condition ≠ .free

theorem joins_iff : ((s.findWay .loading k).isSome || (waysOf (setOf k)).any fun n =>
      decide ((s.way n).condition = .writing) && decide ((s.way n).reserved = some k)) = true ↔
    s.findWay .loading k ≠ none ∨ s.ReservedFor k := by
  simp [List.any_eq_true, Option.isSome_iff_ne_none]

theorem lookupRow_hit (h : s.findWay .valid k = some n) : s.lookupRow k = .hit n := by
  unfold State.lookupRow
  rw [h]

theorem lookupRow_joins (h : s.findWay .valid k = none) (hj : s.findWay .loading k ≠ none ∨ s.ReservedFor k) :
    s.lookupRow k = .joins := by
  unfold State.lookupRow
  rw [h]
  exact if_pos (joins_iff.mpr hj)

theorem lookupRow_writing (h : s.findWay .valid k = none) (hl : s.findWay .loading k = none) (hr : ¬s.ReservedFor k)
    (hw : s.findWay .writing k ≠ none) : s.lookupRow k = .waits := by
  have hj : ¬(s.findWay .loading k ≠ none ∨ s.ReservedFor k) := by simp [hl, hr]
  unfold State.lookupRow
  rw [h]
  exact (if_neg (mt joins_iff.mp hj)).trans (if_pos (Option.isSome_iff_ne_none.mpr hw))

/-- Rows 4 to 7 go by the ways of the set alone. -/
theorem lookupRow_absent (h : s.Absent k) : s.lookupRow k =
    match (waysOf (setOf k)).find? fun n => decide ((s.way n).condition = .free) with
    | some n => .free n
    | none =>
      match s.victim (setOf k) with
      | some n => .takes n
      | none =>
        if (waysOf (setOf k)).any fun n => decide ((s.way n).condition = .writing) && !(s.way n).pinned then .waits
        else .stalls := by
  obtain ⟨hv, hl, hr, hw⟩ := h
  have hj : ¬(s.findWay .loading k ≠ none ∨ s.ReservedFor k) := by simp [hl, hr]
  unfold State.lookupRow
  rw [hv]
  refine (if_neg (mt joins_iff.mp hj)).trans ((if_neg (by simp [hw])).trans ?_)
  rfl

theorem lookupRow_free (h : s.Absent k)
    (hf : (waysOf (setOf k)).find? (fun n => decide ((s.way n).condition = .free)) = some n) :
    s.lookupRow k = .free n := by
  rw [lookupRow_absent h, hf]

theorem find_free_none (h : s.NoneFree i) :
    (waysOf i).find? (fun n => decide ((s.way n).condition = .free)) = none :=
  List.find?_eq_none.mpr fun n hn => by simpa using h n hn

theorem lookupRow_takes (h : s.Absent k) (hf : s.NoneFree (setOf k)) (hv : s.victim (setOf k) = some n) :
    s.lookupRow k = .takes n := by
  rw [lookupRow_absent h, find_free_none hf, hv]

theorem lookupRow_unpinned (h : s.Absent k) (hf : s.NoneFree (setOf k)) (hv : s.victim (setOf k) = none)
    (hw : ∃ n ∈ waysOf (setOf k), (s.way n).condition = .writing ∧ (s.way n).pinned = false) :
    s.lookupRow k = .waits := by
  rw [lookupRow_absent h, find_free_none hf, hv]
  exact if_pos (by simpa [List.any_eq_true] using hw)

theorem lookupRow_stalls (h : s.Absent k) (hf : s.NoneFree (setOf k)) (hv : s.victim (setOf k) = none)
    (hw : ∀ n ∈ waysOf (setOf k), (s.way n).condition = .writing → (s.way n).pinned = true) :
    s.lookupRow k = .stalls := by
  rw [lookupRow_absent h, find_free_none hf, hv]
  exact if_neg (by simpa [List.any_eq_true] using hw)

/-! ### The lookup by its row (R110) -/

/-- What a lookup does, by the row it finds. -/
def followRow (l : Line) (s : State) : LookupRow → State
  | .hit n => pinFor l n (lruNamesOther n s)
  | .joins => waitForLoad l s
  | .waits => waitForHandOver l s
  | .free n => waitForLoad l (startLoad n (s.exchKey l) (s.planOf l).agent (lruNamesOther n s))
  | .takes n => waitForLoad l (evict n (s.exchKey l) (s.planOf l).agent s)
  | .stalls => stall l s

theorem lookup_of_row {row : LookupRow} (h : s.lookupRow (s.exchKey l) = row) : lookup l s = followRow l s row := by
  subst h
  unfold lookup followRow
  rfl

/-- R66: a load that leaves every exchange is waited for by the exchange as it stood before. -/
theorem waitForLoad_eq {t : State} (h : t.exchs = s.exchs) :
    waitForLoad l t = t.setExch l { s.exch l with phase := .preparing, lookup := .load } := by
  have hexch : t.exch l = s.exch l := congrArg (·.get l) h
  rw [waitForLoad, State.modExch_eq, hexch]

/-! ### The way taken (R113, R114) -/

/-- R113: a way that can be taken. -/
abbrev State.Takable (s : State) (n : Fin 64) : Prop := (s.way n).condition = .valid ∧ (s.way n).pinned = false

theorem takable_iff : (decide ((s.way n).condition = .valid) && !(s.way n).pinned) = true ↔ s.Takable n := by simp

theorem filter_takable (s : State) (i : SetIndex) :
    ((waysOf i).filter fun n => decide ((s.way n).condition = .valid) && !(s.way n).pinned) =
      (if s.Takable (way0 i) then [way0 i] else []) ++ if s.Takable (way1 i) then [way1 i] else [] := by
  simp only [waysOf, List.filter_cons, List.filter_nil, takable_iff]
  split <;> rfl

theorem victim_both (h0 : s.Takable (way0 i)) (h1 : s.Takable (way1 i)) :
    s.victim i = some (if s.cache.lru.get i = true then way1 i else way0 i) := by
  unfold State.victim
  rw [filter_takable, if_pos h0, if_pos h1]
  rfl

theorem victim_first (h0 : s.Takable (way0 i)) (h1 : ¬s.Takable (way1 i)) : s.victim i = some (way0 i) := by
  unfold State.victim
  rw [filter_takable, if_pos h0, if_neg h1]
  rfl

theorem victim_second (h0 : ¬s.Takable (way0 i)) (h1 : s.Takable (way1 i)) : s.victim i = some (way1 i) := by
  unfold State.victim
  rw [filter_takable, if_neg h0, if_pos h1]
  rfl

theorem victim_none (h0 : ¬s.Takable (way0 i)) (h1 : ¬s.Takable (way1 i)) : s.victim i = none := by
  unfold State.victim
  rw [filter_takable, if_neg h0, if_neg h1]
  rfl

theorem evict_clean (h : (s.way n).dirty = false) : evict n k agent s = startLoad n k agent (lruNamesOther n s) :=
  if_pos (by rw [show (lruNamesOther n s).way n = s.way n from rfl, h]; rfl)

theorem evict_joins (h : (s.way n).dirty = true) (ht : s.port.takesAtOnce = true) :
    let u := lruNamesOther n s
    evict n k agent s = startLoad n k agent (listWriteBack (s.way n).key (handOver (writeBackEntry u n) u)) :=
  (if_neg (by rw [show (lruNamesOther n s).way n = s.way n from rfl, h]; decide)).trans (if_pos ht)

theorem evict_waits (h : (s.way n).dirty = true) (ht : s.port.takesAtOnce = false) :
    let u := lruNamesOther n s
    evict n k agent s = (handOver (writeBackEntry u n) u).setWay n { s.way n with
      condition := .writing, pinned := true, reserved := some k, loadAgent := agent } :=
  (if_neg (by rw [show (lruNamesOther n s).way n = s.way n from rfl, h]; decide)).trans
    (if_neg (by rw [show (lruNamesOther n s).port = s.port from rfl, ht]; decide))

/-! ### A write-back that waited enters the posting queue (R114, R116, R118) -/

theorem wayHandedOver_none (h : s.findWay .writing key = none) : wayHandedOver key s = listWriteBack key s := by
  unfold wayHandedOver
  rw [h]

theorem wayHandedOver_frees (h : s.findWay .writing key = some n) (hr : (s.way n).reserved = none) :
    wayHandedOver key s = serveFree (setOfWay n) (freeWay n (listWriteBack key s)) := by
  unfold wayHandedOver
  rw [h]
  dsimp only
  rw [hr]

theorem wayHandedOver_loads (h : s.findWay .writing key = some n) (hr : (s.way n).reserved = some k) :
    wayHandedOver key s = remakeFor key (startLoad n k (s.way n).loadAgent (listWriteBack key s)) := by
  unfold wayHandedOver
  rw [h]
  dsimp only
  rw [hr]

/-- R110 row 3: the lookups that wait for the key are made again, the others wait on (log 34). -/
theorem remakeFor_eq (key : Key) (t : State) :
    let i := setOf key
    let waiting := t.cache.handWaits.get i
    remakeFor key t = (waiting.filter fun l => decide (t.exchKey l = key)).foldl (fun u l => lookup l u)
      (t.setCache { t.cache with
        handWaits := upd t.cache.handWaits i (waiting.filter fun l => decide (t.exchKey l ≠ key)) }) := by
  simp only [decide_not]
  rfl

/-- Settles O40: the lookup by its row, the way it takes by its copy, and the write-back that enters the queue. -/
theorem lookupByTable : Obligations.LookupByTable := by
  refine ⟨fun s l => ?_, fun s i => ⟨victim_both, victim_first, victim_second, victim_none⟩, fun s n k agent =>
    ⟨rfl, rfl, rfl, evict_clean, evict_joins, evict_waits⟩, fun s key => ⟨wayHandedOver_none, fun n h =>
      ⟨wayHandedOver_frees h, fun k hr => ?_⟩⟩⟩
  · intro k i e agent reservedFor loaded waits absent noneFree
    refine ⟨fun n h => lookup_of_row (lookupRow_hit h), fun h hj => lookup_of_row (lookupRow_joins h hj),
      fun h hl hr hw => lookup_of_row (lookupRow_writing h hl hr hw), fun n h hf => ?_, fun n h hf hv => ?_,
      fun h hf hv => ⟨fun hw => lookup_of_row (lookupRow_unpinned h hf hv hw),
        fun hw => lookup_of_row (lookupRow_stalls h hf hv hw)⟩⟩
    · exact (lookup_of_row (lookupRow_free h hf)).trans
        (waitForLoad_eq (startLoad_moves n k agent (lruNamesOther n s)).exchs_eq)
    · exact (lookup_of_row (lookupRow_takes h hf hv)).trans (waitForLoad_eq (evict_moves n k agent s).exchs_eq)
  · intro t waiting own others
    rw [wayHandedOver_loads h hr]
    exact remakeFor_eq key t

end Sys2Proof.Machine
end

section
/-! Trips and the cut (R130 to R132, R136): the stages of a cut, what it leaves, and what an onset of a trip input does. -/

namespace Sys2Proof.Machine

variable {s : State} {l : Line} {i : Slot} {place : Byte}

/-! ### The exchange in flight (R78, R85) -/

theorem cutExchange_idle (h : (s.walk l).state ≠ .exchanging) : cutExchange l s = s := if_pos h

theorem cutExchange_resolving (h : (s.walk l).state = .exchanging) (hp : (s.exch l).phase = .resolving) :
    cutExchange l s = cutResolving l s := (if_neg (not_not_intro h)).trans (if_pos hp)

theorem cutExchange_givesUp (h : (s.walk l).state = .exchanging) (hp : (s.exch l).phase ≠ .resolving) :
    cutExchange l s = giveUpExchange l .cut s := (if_neg (not_not_intro h)).trans (if_neg hp)

/-- R131: an exchange that a cut meets is over, whatever its phase was. -/
theorem phase_cutExchange (h : (s.walk l).state = .exchanging) : ((cutExchange l s).exch l).phase = .none := by
  by_cases hp : (s.exch l).phase = .resolving
  · rw [cutExchange_resolving h hp, cutResolving, State.modExch_eq, State.exch_setExch_self]
    rfl
  · rw [cutExchange_givesUp h hp, giveUpExchange, State.modExch_eq, State.exch_setExch_self]
    rfl

/-! ### The holder (R13) -/

theorem cutHolder_none (h : (s.sched l).holder = none) : cutHolder l s = leaveWalk l s := by
  unfold cutHolder
  rw [h]

theorem cutHolder_halting (h : (s.sched l).holder = some i) (hs : (s.plan i).state = .halting) :
    cutHolder l s = endHolder l .halted .none (s.setPlan i { s.plan i with detailLine := true }) := by
  unfold cutHolder
  rw [h]
  exact if_pos hs

theorem cutHolder_faulted (h : (s.sched l).holder = some i) (hs : (s.plan i).state ≠ .halting) :
    cutHolder l s = endHolder l .faulted .lineCut s := by
  unfold cutHolder
  rw [h]
  exact if_neg hs

/-- A cut ends the holder in one of three ways: none to end, a HALTING one, any other. -/
theorem cutHolder_cases {P : State → Prop} (hnone : (s.sched l).holder = none → P (leaveWalk l s))
    (hhalting : ∀ i : Slot, (s.sched l).holder = some i → (s.plan i).state = .halting →
      P (endHolder l .halted .none (s.setPlan i { s.plan i with detailLine := true })))
    (hfaulted : ∀ i : Slot, (s.sched l).holder = some i → (s.plan i).state ≠ .halting →
      P (endHolder l .faulted .lineCut s)) : P (cutHolder l s) := by
  cases hh : (s.sched l).holder with
  | none =>
    rw [cutHolder_none hh]
    exact hnone hh
  | some i =>
    by_cases hs : (s.plan i).state = .halting
    · rw [cutHolder_halting hh hs]
      exact hhalting i hh hs
    · rw [cutHolder_faulted hh hs]
      exact hfaulted i hh hs

theorem walk_endHolder (l : Line) (code : EndCode) (detail : FaultDetail) (s : State) :
    ((endHolder l code detail s).walk l).state = .noHolder := by
  rw [endHolder_eq, State.walk_setSched, State.walk_setWalk_self]

theorem sched_endHolder (l : Line) (code : EndCode) (detail : FaultDetail) (s : State) (m : Line) :
    (endHolder l code detail s).sched m = if m = l then { s.sched l with holder := none } else s.sched m := by
  rw [endHolder_eq, State.sched_setSched, State.sched_setWalk, State.sched_setPort, sched_endPlan]

theorem plan_endHolder (l : Line) (code : EndCode) (detail : FaultDetail) (s : State) (j : Slot) :
    (endHolder l code detail s).plan j = (endPlan (s.slotOf l) code detail s).plan j := rfl

theorem walk_cutHolder (l : Line) (s : State) : ((cutHolder l s).walk l).state = .noHolder := by
  refine cutHolder_cases (P := fun t => (t.walk l).state = _) (fun _ => ?_) (fun _ _ _ => walk_endHolder ..)
    fun _ _ _ => walk_endHolder ..
  unfold leaveWalk
  rw [State.modWalk_eq, State.walk_setWalk_self]

/-- R46: a line that is cut has no holder; its run queue and the other Schedulers stay. -/
theorem sched_cutHolder (l : Line) (s : State) (m : Line) :
    (cutHolder l s).sched m = if m = l then { s.sched l with holder := none } else s.sched m := by
  refine cutHolder_cases (P := fun t => t.sched m = _) (fun hh => ?_) (fun _ _ _ => sched_endHolder ..)
    fun _ _ _ => sched_endHolder ..
  split
  · next hm =>
    rw [← hh, hm]
    rfl
  · rfl

/-- R13: an ACTIVE holder ends FAULTED with LINE_CUT. -/
theorem plan_cutHolder_active (hh : (s.sched l).holder = some i) (hw : (s.walk l).holder = i)
    (hs : (s.plan i).state = .active) :
    ((cutHolder l s).plan i).state = .ending ∧ ((cutHolder l s).plan i).endCode = .faulted ∧
      ((cutHolder l s).plan i).faultDetail = .lineCut := by
  have hkept := plan_endPlan (s := s) (i := i) (code := .faulted) (detail := .lineCut) (by rw [hs]; nofun)
  rw [cutHolder_faulted hh (by rw [hs]; nofun), plan_endHolder, State.slotOf, hw]
  exact ⟨hkept.state, hkept.endCode, hkept.faultDetail⟩

/-- R13: a HALTING holder ends HALTED with the detail line flag set. -/
theorem plan_cutHolder_halting (hh : (s.sched l).holder = some i) (hw : (s.walk l).holder = i)
    (hs : (s.plan i).state = .halting) :
    ((cutHolder l s).plan i).state = .ending ∧ ((cutHolder l s).plan i).endCode = .halted ∧
      ((cutHolder l s).plan i).detailLine = true := by
  have hkept := plan_endPlan (s := s.setPlan i { s.plan i with detailLine := true }) (i := i) (code := .halted)
    (detail := .none) (by rw [State.plan_setPlan_self]; show (s.plan i).state.isOver ≠ true; rw [hs]; nofun)
  rw [State.plan_setPlan_self] at hkept
  rw [cutHolder_halting hh hs, plan_endHolder, State.slotOf, State.walk_setPlan, hw]
  exact ⟨hkept.state, hkept.endCode, hkept.detailLine⟩

/-- A cut ends no plan but the holder. -/
theorem planKept_cutHolder (hw : (s.walk l).holder ≠ i) (hh : (s.sched l).holder ≠ some i) :
    PlanKept (s.plan i) ((cutHolder l s).plan i) := by
  refine cutHolder_cases (P := fun t => PlanKept _ (t.plan i)) (fun _ => .refl _) (fun j hj _ => ?_) fun j _ _ => ?_
  · rw [plan_endHolder]
    have hset : PlanKept (s.plan i) ((s.setPlan j { s.plan j with detailLine := true }).plan i) := by
      rw [State.plan_setPlan_ne _ _ fun hij => hh (by rw [hj, hij])]
      exact .refl _
    exact hset.trans (planKept_endPlan (Ne.symm hw) _ _ _)
  · rw [plan_endHolder]
    exact planKept_endPlan (Ne.symm hw) _ _ _

/-! ### The cut (R131) -/

/-- R131: the line cut, its payload byte given up and its settle timer stopped, while its exchange and its holder still stand. -/
def lineOff (l : Line) (s : State) : State :=
  let c := s.setLine l (s.lineCtl l).cut
  (pumpWaiting (c.setPort (c.port.dropPayloadWait l))).setDriver l { s.driver l with settleTimer := .stopped }

/-- The line cut and its exchange ended, while its holder still stands. -/
def exchangeOff (l : Line) (s : State) : State := cutExchange l (lineOff l s)

/-- R131: a whole cut, but for the ending step of a LINE_DISABLE that waits. -/
def cutDone (l : Line) (place : Byte) (s : State) : State :=
  (cutHolder l (exchangeOff l s)).setLog (s.log.record .lineTrip l place 0)

/-- The writes that wait join; of the drivers they change none. -/
theorem lineOff_eq (l : Line) (s : State) :
    let c := s.setLine l (s.lineCtl l).cut
    lineOff l s = (pumpWaiting (c.setPort (c.port.dropPayloadWait l))).modDriver l fun d =>
      { d with settleTimer := .stopped } := by
  intro c
  have hd : (pumpWaiting (c.setPort (c.port.dropPayloadWait l))).driver l = s.driver l :=
    congrArg (·.get l) (pumpWaiting_moves _).drivers_eq
  rw [State.modDriver_eq, hd]
  rfl

/-- The writes that wait leave the walk in its state. -/
theorem state_walk_lineOff (l : Line) (s : State) : ((lineOff l s).walk l).state = (s.walk l).state := by
  unfold lineOff
  rw [State.walk_setDriver, (pumpWaiting_moves _).walkKept l]
  rfl

theorem lineCtl_exchangeOff (l : Line) (s : State) (m : Line) :
    (exchangeOff l s).lineCtl m = if m = l then (s.lineCtl l).cut else s.lineCtl m := by
  have hcut : (exchangeOff l s).lineCtl m = (lineOff l s).lineCtl m :=
    congrArg (·.get m) (cutExchange_moves l (lineOff l s)).lines_eq
  rw [hcut, ← State.lineCtl_setLine]
  exact congrArg (·.get m) (pumpWaiting_moves _).lines_eq

theorem driver_exchangeOff (l : Line) (s : State) (m : Line) :
    (exchangeOff l s).driver m = if m = l then { s.driver l with settleTimer := .stopped } else s.driver m := by
  have hcut : (exchangeOff l s).driver m = (lineOff l s).driver m :=
    congrArg (·.get m) (cutExchange_moves l (lineOff l s)).drivers_eq
  rw [hcut, lineOff, State.driver_setDriver]
  split
  · rfl
  · exact congrArg (·.get m) (pumpWaiting_moves _).drivers_eq

theorem log_exchangeOff (l : Line) (s : State) : (exchangeOff l s).log = s.log :=
  (cutExchange_moves l (lineOff l s)).log_eq.trans
    (show (lineOff l s).log = s.log from (pumpWaiting_moves _).log_eq)

/-- A line in use is cut, and its exchange ended, by moves that end no plan and give up no walk. -/
theorem exchangeOff_moves (h : (s.lineCtl l).state ≠ .disabled) :
    Moves (.line :: .driver :: contextKinds) s (exchangeOff l s) := by
  have hline : Moves [.line] s (s.setLine l (s.lineCtl l).cut) :=
    inUse_moves l LineController.cut s h (fun _ => nofun) fun _ => Nat.zero_le _
  have hoff : Moves (.line :: .driver :: contextKinds) s (lineOff l s) := by
    rw [lineOff_eq]
    exact (((Moves.refl.via hline).via (dropPayloadWait_moves l _)).via (pumpWaiting_moves _)).via (modDriver_moves l _ _)
  exact hoff.via (cutExchange_moves l _)

/-- R136: a cut ends with the ending step of a LINE_DISABLE that waits for the exchange. -/
theorem cutLine_eq (l : Line) (place : Byte) (s : State) :
    cutLine l place s =
      if (s.driver l).disable = .waitingExchange then endingStep l (cutDone l place s) else cutDone l place s := by
  have hmoves := cutHolder_moves l (exchangeOff l s)
  have hlog : (cutHolder l (exchangeOff l s)).log = s.log := hmoves.log_eq.trans (log_exchangeOff l s)
  have hdone : recordFault .lineTrip l place 0 (cutHolder l (exchangeOff l s)) = cutDone l place s := by
    rw [recordFault, hlog]
    rfl
  have hdisable : ((cutDone l place s).driver l).disable = (s.driver l).disable := by
    have hd : (cutDone l place s).driver l = (exchangeOff l s).driver l := congrArg (·.get l) hmoves.drivers_eq
    rw [hd, driver_exchangeOff, if_pos rfl]
  have hcut : cutLine l place s =
      if ((cutDone l place s).driver l).disable = .waitingExchange then endingStep l (cutDone l place s)
      else cutDone l place s := by
    rw [← hdone, exchangeOff, lineOff_eq]
    rfl
  rw [hcut, hdisable]

theorem cutLine_cuts (h : (s.driver l).disable ≠ .waitingExchange) : cutLine l place s = cutDone l place s := by
  rw [cutLine_eq, if_neg h]

theorem cutLine_takesDown (h : (s.driver l).disable = .waitingExchange) :
    cutLine l place s = endingStep l (cutDone l place s) := by
  rw [cutLine_eq, if_pos h]

/-- R13, R131: `t` is `s` with line `l` cut for the source of code `place`. -/
structure LineCut (l : Line) (place : Byte) (s t : State) : Prop where
  lineCtl : t.lineCtl l = (s.lineCtl l).cut
  driver : t.driver l = { s.driver l with settleTimer := .stopped }
  phase : (s.walk l).state = .exchanging → (t.exch l).phase = .none
  walk : (t.walk l).state = .noHolder
  sched : t.sched l = { s.sched l with holder := none }
  log : t.log = s.log.record .lineTrip l place 0
  active : ∀ i : Slot, (s.sched l).holder = some i → (s.walk l).holder = i → (s.plan i).state = .active →
    (t.plan i).state = .ending ∧ (t.plan i).endCode = .faulted ∧ (t.plan i).faultDetail = .lineCut
  halting : ∀ i : Slot, (s.sched l).holder = some i → (s.walk l).holder = i → (s.plan i).state = .halting →
    (t.plan i).state = .ending ∧ (t.plan i).endCode = .halted ∧ (t.plan i).detailLine = true
  kept : ∀ i : Slot, (s.walk l).holder ≠ i → (s.sched l).holder ≠ some i → PlanKept (s.plan i) (t.plan i)
  others : ∀ m : Line, m ≠ l → t.lineCtl m = s.lineCtl m ∧ t.driver m = s.driver m ∧ t.sched m = s.sched m
  backlog : t.backlog = s.backlog
  partState : t.unit.partState = s.unit.partState

theorem lineCtl_cutDone (l : Line) (place : Byte) (s : State) (m : Line) :
    (cutDone l place s).lineCtl m = if m = l then (s.lineCtl l).cut else s.lineCtl m := by
  rw [cutDone, State.lineCtl_setLog, ← lineCtl_exchangeOff]
  exact congrArg (·.get m) (cutHolder_moves l _).lines_eq

theorem driver_cutDone (l : Line) (place : Byte) (s : State) (m : Line) :
    (cutDone l place s).driver m = if m = l then { s.driver l with settleTimer := .stopped } else s.driver m := by
  rw [cutDone, State.driver_setLog, ← driver_exchangeOff]
  exact congrArg (·.get m) (cutHolder_moves l _).drivers_eq

/-- R131: an exchange in flight is over with the cut. -/
theorem phase_cutDone (place : Byte) (h : (s.walk l).state = .exchanging) :
    ((cutDone l place s).exch l).phase = .none := by
  have hexch : (cutHolder l (exchangeOff l s)).exch l = (exchangeOff l s).exch l :=
    congrArg (·.get l) (cutHolder_moves l _).exchs_eq
  rw [cutDone, State.exch_setLog, hexch]
  exact phase_cutExchange ((state_walk_lineOff l s).trans h)

theorem plan_cutDone (l : Line) (place : Byte) (s : State) (i : Slot) :
    (cutDone l place s).plan i = (cutHolder l (exchangeOff l s)).plan i := by
  rw [cutDone, State.plan_setLog]

/-- R131: a cut of a line in use. -/
theorem lineCut_cutDone (place : Byte) (h : (s.lineCtl l).state ≠ .disabled) : LineCut l place s (cutDone l place s) := by
  have hoff := exchangeOff_moves h
  have hend := cutHolder_moves l (exchangeOff l s)
  have hsched (m : Line) : (exchangeOff l s).sched m = s.sched m := congrArg (·.get m) hoff.scheds_eq
  have hholder : ((exchangeOff l s).walk l).holder = (s.walk l).holder := by rw [hoff.walkKept l]
  have hplan := hoff.planKept
  have hcut (m : Line) : (cutDone l place s).sched m =
      if m = l then { s.sched l with holder := none } else s.sched m := by
    rw [cutDone, State.sched_setLog, sched_cutHolder, hsched, hsched]
  refine ⟨by rw [lineCtl_cutDone, if_pos rfl], by rw [driver_cutDone, if_pos rfl], phase_cutDone place,
    by rw [cutDone, State.walk_setLog, walk_cutHolder], by rw [hcut, if_pos rfl], rfl, fun i hh hw hs => ?_,
    fun i hh hw hs => ?_, fun i hw hh => ?_, fun m hm => ⟨?_, ?_, ?_⟩, ?_, ?_⟩
  · rw [← hsched l] at hh
    rw [plan_cutDone]
    exact plan_cutHolder_active hh (hholder.trans hw) ((hplan i).state.trans hs)
  · rw [← hsched l] at hh
    rw [plan_cutDone]
    exact plan_cutHolder_halting hh (hholder.trans hw) ((hplan i).state.trans hs)
  · rw [← hsched l] at hh
    rw [plan_cutDone]
    exact (hplan i).trans (planKept_cutHolder (by rw [hholder]; exact hw) hh)
  · rw [lineCtl_cutDone, if_neg hm]
  · rw [driver_cutDone, if_neg hm]
  · rw [hcut, if_neg hm]
  · rw [cutDone, State.backlog_setLog, hend.backlog_eq, hoff.backlog_eq]
  · rw [cutDone, State.unit_setLog, hend.partState_eq, hoff.partState_eq]

/-- R127: the driver of a cut line is at the cutoff level. -/
theorem LineCut.driverLevel {t : State} (h : LineCut l place s t) :
    t.driverLevel l = (s.driver l).setup.cutoff.level := by
  unfold State.driverLevel
  rw [h.lineCtl, h.driver]
  rfl

/-! ### A cut while a LINE_DISABLE waits (R136) -/

/-- R136: the ending step stops the guard timer of its line with it (log 12). -/
theorem lineCtl_endingStep_self (l : Line) (s : State) :
    (endingStep l s).lineCtl l = { s.lineCtl l with state := .disabled, guard := .stopped } := by
  rw [endingStep_eq, (advanceDisable_frame l _).1, lineCtl_takenDown, if_pos rfl, (plansEnded_frame l s).1]

/-- R13, R136: `t` is `s` with line `l` cut and then taken down by the LINE_DISABLE that waited. -/
structure LineTakenDown (l : Line) (place : Byte) (s t : State) : Prop where
  lineCtl : t.lineCtl l = { (s.lineCtl l).cut with state := .disabled }
  floats : t.driverLevel l = .floats
  walk : (t.walk l).state = .noHolder
  holder : (t.sched l).holder = none
  queue : (t.sched l).queue = []
  disable : (t.driver l).disable = .writingBack ∨ (t.driver l).disable = .writingEpochs
  settle : (t.driver l).settleTimer = .stopped
  window : (t.driver l).windowTimer = .stopped
  drain : (t.driver l).drainTimer = .stopped
  log : t.log = s.log.record .lineTrip l place 0
  active : ∀ i : Slot, (s.sched l).holder = some i → (s.walk l).holder = i → (s.plan i).state = .active →
    (t.plan i).state = .ending ∧ (t.plan i).endCode = .faulted ∧ (t.plan i).faultDetail = .lineCut
  halting : ∀ i : Slot, (s.sched l).holder = some i → (s.walk l).holder = i → (s.plan i).state = .halting →
    (t.plan i).state = .ending ∧ (t.plan i).endCode = .halted ∧ (t.plan i).detailLine = true
  waiting : ∀ i : Slot, (s.walk l).holder ≠ i → (s.sched l).holder ≠ some i → (s.plan i).line = l →
    (s.plan i).state = .queued ∨ (s.plan i).state = .setAside ∨ (s.plan i).state = .waiting →
    (t.plan i).state = .ending ∧ (t.plan i).endCode = .faulted ∧ (t.plan i).faultDetail = .lineDisabled
  others : ∀ m : Line, m ≠ l → t.lineCtl m = s.lineCtl m ∧ t.driver m = s.driver m ∧ t.sched m = s.sched m
  backlog : t.backlog = s.backlog
  partState : t.unit.partState = s.unit.partState

/-- R13: a plan that is ENDING already stays as it is in the ending step. -/
theorem planKept_endingStep_ending (l : Line) (h : (s.plan i).state = .ending) :
    PlanKept (s.plan i) ((endingStep l s).plan i) := planKept_endingStep (.inr (by rw [h]; rfl))

/-- R136: the ending step after a cut. -/
theorem LineCut.takenDown {c : State} (h : LineCut l place s c) : LineTakenDown l place s (endingStep l c) := by
  obtain ⟨hdown, hlines⟩ := lineCtl_endingStep l c
  obtain ⟨hholder, hqueue, hscheds⟩ := sched_endingStep l c
  obtain ⟨⟨hsettle, hwindow, hdrain⟩, hdisable, hdrivers⟩ := driver_endingStep l c
  obtain ⟨hbacklog, hlog, hpart⟩ := endingStep_frame l c
  refine ⟨?_, ?_, walk_endingStep l c, hholder, hqueue, hdisable, hsettle, hwindow, hdrain, hlog.trans h.log,
    fun i hh hw hs => ?_, fun i hh hw hs => ?_, fun i hw hh hl hs => ?_, fun m hm => ?_, hbacklog.trans h.backlog,
    hpart.trans h.partState⟩
  · rw [lineCtl_endingStep_self, h.lineCtl]
    rfl
  · unfold State.driverLevel
    rw [hdown]
  · obtain ⟨hstate, hcode, hdetail⟩ := h.active i hh hw hs
    have hkept := planKept_endingStep_ending l hstate
    exact ⟨hkept.state.trans hstate, hkept.endCode.trans hcode, hkept.faultDetail.trans hdetail⟩
  · obtain ⟨hstate, hcode, hdetail⟩ := h.halting i hh hw hs
    have hkept := planKept_endingStep_ending l hstate
    exact ⟨hkept.state.trans hstate, hkept.endCode.trans hcode, hkept.detailLine.trans hdetail⟩
  · have hkept := h.kept i hw hh
    have hlive : (c.plan i).state.isLive = true := by
      rw [hkept.state]
      rcases hs with hs | hs | hs <;> (rw [hs]; rfl)
    have hnot : (c.plan i).state ≠ .halting := by
      rw [hkept.state]
      rcases hs with hs | hs | hs <;> (rw [hs]; nofun)
    have hended := plan_endingStep (hkept.line.trans hl) hlive
    exact ⟨hended.state, by rw [hended.endCode, if_neg hnot], by rw [hended.faultDetail, if_neg hnot]⟩
  · obtain ⟨hline, hdriver, hsched⟩ := h.others m hm
    exact ⟨(hlines m hm).trans hline, (hdrivers m hm).trans hdriver, (hscheds m hm).trans hsched⟩

/-! ### Onsets (R130 to R132) -/

theorem takeOnset_disregarded (h : (s.lineCtl l).state = .disabled ∨ (s.lineCtl l).state = .cut) :
    takeOnset l place s = s := if_pos h

theorem takeOnset_ignored (hd : (s.lineCtl l).state ≠ .disabled) (hc : (s.lineCtl l).state ≠ .cut)
    (h : (s.driver l).setup.cutoff = .ignore) :
    takeOnset l place s = s.setLog (s.log.record .tripIgnored l place 0) :=
  (if_neg (not_or_intro hd hc)).trans (if_pos h)

theorem takeOnset_cuts (hd : (s.lineCtl l).state ≠ .disabled) (hc : (s.lineCtl l).state ≠ .cut)
    (h : (s.driver l).setup.cutoff ≠ .ignore) : takeOnset l place s = cutLine l place s :=
  (if_neg (not_or_intro hd hc)).trans (if_neg h)

variable {p : TripPin}

@[simp] theorem source_setPin (d : Driver) (p : TripPin) (b : Bool) : (d.setPin p b).source p = d.source p := by
  cases p <;> rfl

/-- A pin and the source looked at there are no part of the setup or of a LINE_DISABLE. -/
theorem setSource_setPin_frame (d : Driver) (p : TripPin) (a b : Bool) :
    ((d.setPin p a).setSource p b).setup = d.setup ∧ ((d.setPin p a).setSource p b).disable = d.disable := by
  cases p <;> exact ⟨rfl, rfl⟩

/-- R130: the monitor has seen the source become active. -/
abbrev State.sourceSeen (s : State) (l : Line) (p : TripPin) : State :=
  s.setDriver l (((s.driver l).setPin p true).setSource p true)

theorem exec_tripOnset_notTaken (h : (s.lineCtl l).state = .disabled ∨ (s.driver l).source p = true) :
    exec (.tripOnset l p) s = .next (s.setDriver l ((s.driver l).setPin p true)) := by
  refine congrArg Host.Outcome.next (if_pos ?_)
  rw [State.modDriver_eq, State.driver_setDriver_self, source_setPin]
  exact h

theorem exec_tripOnset_taken (hs : (s.driver l).source p = false) (hd : (s.lineCtl l).state ≠ .disabled) :
    exec (.tripOnset l p) s = .next (takeOnset l (tripPlace p) (s.sourceSeen l p)) := by
  refine congrArg Host.Outcome.next ((if_neg ?_).trans ?_)
  · rw [State.modDriver_eq, State.driver_setDriver_self, source_setPin, hs]
    exact not_or_intro hd nofun
  · rw [State.modDriver_eq, State.modDriver_eq, State.driver_setDriver_self, State.setDriver_setDriver]

theorem tripPlace_eq (p : TripPin) : tripPlace p = if p = .overcurrent then 1 else 2 := by cases p <;> rfl

/-- R130: an input that falls back takes its source with it. -/
theorem exec_tripSourceCleared (l : Line) (s : State) :
    exec (.tripSourceCleared l .overcurrent) s =
        .next (s.setDriver l { s.driver l with pinOvercurrent := false, overcurrent := false }) ∧
      exec (.tripSourceCleared l .tripInput) s =
        .next (s.setDriver l { s.driver l with pinTripInput := false, tripInput := false }) := ⟨rfl, rfl⟩

/-- R131: the trip of a line in use, no LINE_DISABLE waiting. -/
theorem lineCut_cutLine (place : Byte) (h : (s.lineCtl l).state ≠ .disabled)
    (hw : (s.driver l).disable ≠ .waitingExchange) : LineCut l place s (cutLine l place s) := by
  rw [cutLine_cuts hw]
  exact lineCut_cutDone place h

/-- R136: the trip of a line in use that a LINE_DISABLE waits for. -/
theorem lineTakenDown_cutLine (place : Byte) (h : (s.lineCtl l).state ≠ .disabled)
    (hw : (s.driver l).disable = .waitingExchange) : LineTakenDown l place s (cutLine l place s) := by
  rw [cutLine_takesDown hw]
  exact (lineCut_cutDone place h).takenDown

/-- Settles O32: the onset by the state of its line and the cutoff level, then the stages of the cut. -/
theorem tripSourcesTaken : Obligations.TripSourcesTaken := by
  refine ⟨fun s l p => ?_, fun s l place => ?_⟩
  · intro pinned seen place
    obtain ⟨hsetup, hdisable⟩ := setSource_setPin_frame (s.driver l) p true true
    have hdriver : seen.driver l = ((s.driver l).setPin p true).setSource p true := State.driver_setDriver_self _ _ _
    have hothers (m : Line) (hm : m ≠ l) : seen.driver m = s.driver m := State.driver_setDriver_ne _ _ hm
    have htaken (hs : (s.driver l).source p = false) (hd : (s.lineCtl l).state ≠ .disabled) :
        exec (.tripOnset l p) s = .next (takeOnset l place seen) := by
      rw [exec_tripOnset_taken hs hd, tripPlace_eq]
    have hcut (hs : (s.driver l).source p = false) (hd : (s.lineCtl l).state ≠ .disabled)
        (hc : (s.lineCtl l).state ≠ .cut) (hi : (s.driver l).setup.cutoff ≠ .ignore) :
        exec (.tripOnset l p) s = .next (cutLine l place seen) := by
      rw [htaken hs hd, takeOnset_cuts (s := seen) hd hc (by rw [hdriver, hsetup]; exact hi)]
    refine ⟨exec_tripOnset_notTaken, fun hs hc => ?_, fun hs hd hc => ⟨fun hi => ?_, fun hi hw => ?_, fun hi hw => ?_⟩,
      exec_tripSourceCleared l s⟩
    · rw [htaken hs (by rw [hc]; nofun), takeOnset_disregarded (s := seen) (.inr hc)]
    · rw [htaken hs hd, takeOnset_ignored (s := seen) hd hc (by rw [hdriver, hsetup]; exact hi)]
      rfl
    · have h := lineCut_cutLine (s := seen) place hd (by rw [hdriver, hdisable]; exact hw)
      refine ⟨cutLine l place seen, hcut hs hd hc hi, rfl, h.lineCtl, by rw [h.lineCtl]; rfl, by rw [h.lineCtl]; rfl,
        ?_, ?_, h.phase, h.walk, by rw [h.sched], by rw [h.sched]; rfl, h.log, h.active, h.halting, fun i hw hh => ?_,
        fun m hm => ?_, h.backlog, h.partState⟩
      · rw [h.driverLevel, hdriver, hsetup]
      · rw [h.driver, hdriver]
      · have hkept := h.kept i hw hh
        exact ⟨hkept.state, hkept.endCode⟩
      · obtain ⟨hline, hdriver, hsched⟩ := h.others m hm
        exact ⟨hline, hdriver.trans (hothers m hm), hsched⟩
    · have hwaits : (seen.driver l).disable = .waitingExchange := by rw [hdriver, hdisable]; exact hw
      have h := lineTakenDown_cutLine (s := seen) place hd hwaits
      refine ⟨cutDone l place seen, cutLine l place seen, hcut hs hd hc hi, cutLine_takesDown hwaits, rfl,
        phase_cutDone (s := seen) place, h.lineCtl, h.floats, h.walk, h.holder, h.queue, h.disable, h.settle, h.window,
        h.drain, h.log, h.active, h.halting, h.waiting, fun m hm => ?_, h.backlog, h.partState⟩
      obtain ⟨hline, hdriver, hsched⟩ := h.others m hm
      exact ⟨hline, hdriver.trans (hothers m hm), hsched⟩
  · intro c b t cut idle
    exact ⟨cutLine_cuts, cutLine_takesDown, cutExchange_idle, cutExchange_resolving, cutExchange_givesUp, cutHolder_none,
      fun i hh => ⟨cutHolder_halting hh, cutHolder_faulted hh⟩⟩

end Sys2Proof.Machine
end

section
/-! Temperature samples (R128): the zone, and the onset of THERMAL (R130). -/

namespace Sys2Proof.Machine

variable {s : State} {l : Line} {x : Int}

/-- R128: the table of the zones, with its hysteresis of 5 degrees. -/
theorem zone_next_table {w h : Nat} (hwh : w < h) (x : Int) :
    ((h : Int) ≤ x → Zone.next .cool w h x = .hot ∧ Zone.next .warm w h x = .hot) ∧
    ((w : Int) ≤ x → x < h → Zone.next .cool w h x = .warm) ∧ (x < w → Zone.next .cool w h x = .cool) ∧
    ((w : Int) - 5 ≤ x → x < h → Zone.next .warm w h x = .warm) ∧
    (x < (w : Int) - 5 → Zone.next .warm w h x = .cool ∧ Zone.next .hot w h x = .cool) ∧
    ((h : Int) - 5 ≤ x → Zone.next .hot w h x = .hot) ∧
    ((w : Int) - 5 ≤ x → x < (h : Int) - 5 → Zone.next .hot w h x = .warm) := by
  refine ⟨fun hx => ⟨if_pos hx, if_pos hx⟩, fun hw hx => ?_, fun hx => ?_, fun hw hx => ?_, fun hx => ⟨?_, ?_⟩,
    fun hx => if_pos hx, fun hw hx => ?_⟩
  · exact (if_neg (by omega)).trans (if_pos hw)
  · exact (if_neg (by omega)).trans (if_neg (by omega))
  · exact (if_neg (by omega)).trans (if_pos hw)
  · exact (if_neg (by omega)).trans (if_neg (by omega))
  · exact (if_neg (by omega)).trans (if_neg (by omega))
  · exact (if_neg (by omega)).trans (if_pos hw)

/-- R130: THERMAL is active in the HOT zone of a setup whose HOT budget is 0. -/
theorem thermal_iff (d : Driver) : d.thermal = true ↔ d.zone = .hot ∧ d.setup.hotBudget = 0 := by
  simp only [Driver.thermal, Bool.and_eq_true, decide_eq_true_eq]

/-- R128: a Driver Monitor after a sample. -/
def Driver.sampled (d : Driver) (x : Int) : Driver := { d with zone := d.zone.next d.setup.warm d.setup.hot x }

/-- R130: the sample is the onset of THERMAL: it moves the zone to HOT from another, and HOT admits no frame. -/
abbrev Driver.OnsetAt (d : Driver) (x : Int) : Prop :=
  d.zone.next d.setup.warm d.setup.hot x = .hot ∧ d.zone ≠ .hot ∧ d.setup.hotBudget = 0

theorem onsetAt_iff (d : Driver) (x : Int) : d.OnsetAt x ↔ ((d.sampled x).thermal && !d.thermal) = true := by
  rw [Bool.and_eq_true, Bool.not_eq_true', ← Bool.not_eq_true, thermal_iff, thermal_iff]
  show _ ↔ (d.zone.next d.setup.warm d.setup.hot x = .hot ∧ d.setup.hotBudget = 0) ∧ _
  exact ⟨fun ⟨hz, hne, hb⟩ => ⟨⟨hz, hb⟩, fun hhot => hne hhot.1⟩,
    fun ⟨⟨hz, hb⟩, hnot⟩ => ⟨hz, fun hhot => hnot ⟨hhot, hb⟩, hb⟩⟩

theorem sample_eq (l : Line) (x : Int) (s : State) :
    sample l x s = if (s.driver l).OnsetAt x then takeOnset l thermalPlace (s.setDriver l ((s.driver l).sampled x))
      else s.setDriver l ((s.driver l).sampled x) := by
  unfold sample
  simp only [State.modDriver_eq, State.driver_setDriver_self, onsetAt_iff]
  rfl

theorem exec_temperatureSample_disabled (h : (s.lineCtl l).state = .disabled) :
    exec (.temperatureSample l x) s = .next s := congrArg Host.Outcome.next (if_pos h)

theorem exec_temperatureSample (h : (s.lineCtl l).state ≠ .disabled) :
    exec (.temperatureSample l x) s = .next (sample l x s) := congrArg Host.Outcome.next (if_neg h)

/-- R128: a sample that is no onset of THERMAL, and any sample of a CUT line, moves the zone alone. -/
theorem sample_moves_zone (h : (s.lineCtl l).state = .cut ∨ ¬(s.driver l).OnsetAt x) :
    sample l x s = s.setDriver l ((s.driver l).sampled x) := by
  rw [sample_eq]
  split
  · next honset => exact takeOnset_disregarded (.inr (h.resolve_right (not_not_intro honset)))
  · rfl

/-- R130, R131: an onset of THERMAL on a line in use is a trip. -/
theorem sample_cuts (hd : (s.lineCtl l).state ≠ .disabled) (hc : (s.lineCtl l).state ≠ .cut)
    (ho : (s.driver l).OnsetAt x) (hi : (s.driver l).setup.cutoff ≠ .ignore) :
    sample l x s = cutLine l 4 (s.setDriver l { s.driver l with zone := .hot }) := by
  have hhot : (s.driver l).sampled x = { s.driver l with zone := .hot } := by rw [Driver.sampled, ho.1]
  rw [sample_eq, if_pos ho, hhot]
  refine takeOnset_cuts hd hc ?_
  rw [State.driver_setDriver_self]
  exact hi

/-- Settles O33: the table of the zones, and the sample by whether it is an onset of THERMAL on a line in use. -/
theorem temperatureMovesZone : Obligations.TemperatureMovesZone := by
  refine ⟨fun w h x hwh => zone_next_table hwh x, fun s l x => ?_⟩
  intro d z
  have hdriver : (s.setDriver l { d with zone := .hot }).driver l = { d with zone := .hot } :=
    State.driver_setDriver_self _ _ _
  have hothers (m : Line) (hm : m ≠ l) : (s.setDriver l { d with zone := .hot }).driver m = s.driver m :=
    State.driver_setDriver_ne _ _ hm
  refine ⟨exec_temperatureSample_disabled, fun hd h => ?_, fun hd hc hz hne hb hi hw => ?_,
    fun hd hc hz hne hb hi hw => ?_⟩
  · rw [exec_temperatureSample hd, sample_moves_zone h]
    rfl
  · have h := lineCut_cutLine (s := s.setDriver l { d with zone := .hot }) 4 hd (by rw [hdriver]; exact hw)
    refine ⟨_, ?_, ?_, rfl, ?_, h.log, by rw [h.sched], fun m hm => ?_, h.backlog, h.partState⟩
    · rw [exec_temperatureSample hd, sample_cuts hd hc ⟨hz, hne, hb⟩ hi]
    · rw [h.lineCtl]
      rfl
    · rw [h.driver, hdriver]
    · obtain ⟨hline, hdriver, hsched⟩ := h.others m hm
      exact ⟨hline, hdriver.trans (hothers m hm), hsched⟩
  · have hwaits : ((s.setDriver l { d with zone := .hot }).driver l).disable = .waitingExchange := by
      rw [hdriver]
      exact hw
    have h := lineTakenDown_cutLine (s := s.setDriver l { d with zone := .hot }) 4 hd hwaits
    refine ⟨cutDone l 4 (s.setDriver l { d with zone := .hot }), _, ?_, cutLine_takesDown hwaits, rfl,
      phase_cutDone (s := s.setDriver l { d with zone := .hot }) 4, h.lineCtl, h.floats, h.walk, h.holder, h.queue,
      h.disable, h.settle, h.window, h.drain, h.log, h.active, h.halting, h.waiting, fun m hm => ?_, h.backlog,
      h.partState⟩
    · rw [exec_temperatureSample hd, sample_cuts hd hc ⟨hz, hne, hb⟩ hi]
    · obtain ⟨hline, hdriver, hsched⟩ := h.others m hm
      exact ⟨hline, hdriver.trans (hothers m hm), hsched⟩

end Sys2Proof.Machine
end

section
/-! The timers of a Driver Monitor (R127, R129, R134), the answers to its epoch writes (R126, R137), and the commands LINE_ENABLE
(R126) and LINE_RESTORE (R133). -/

namespace Sys2Proof.Machine

variable {s : State} {k : Agent} {l : Line}

/-! ### Timers (R127, R129, R134) -/

theorem isRunning_stopped : ¬Timer.stopped.isRunning = true := nofun

theorem exec_budgetWindowExpiry (h : (s.driver l).windowTimer.isRunning = true) :
    exec (.budgetWindowExpiry l) s = .next (s.setDriver l { s.driver l with
      windowCount := 0, windowTimer := .running (100 * (s.driver l).setup.window) }) :=
  congrArg Host.Outcome.next (if_pos h)

theorem exec_budgetWindowExpiry_stopped (h : (s.driver l).windowTimer = .stopped) :
    exec (.budgetWindowExpiry l) s = .next s :=
  congrArg Host.Outcome.next (if_neg (by rw [h]; exact isRunning_stopped))

theorem exec_drainExpiry (h : (s.driver l).drainTimer.isRunning = true) :
    exec (.drainExpiry l) s = .next (s.setDriver l { s.driver l with
      drainEpoch := (s.driver l).drainEpoch + 1, drainTimer := .running (s.driver l).setup.drainPeriod }) :=
  congrArg Host.Outcome.next (if_pos h)

theorem exec_drainExpiry_stopped (h : (s.driver l).drainTimer = .stopped) : exec (.drainExpiry l) s = .next s :=
  congrArg Host.Outcome.next (if_neg (by rw [h]; exact isRunning_stopped))

theorem exec_settleExpiry (hp : (s.lineCtl l).state = .powering) (h : (s.driver l).settleTimer.isRunning = true) :
    exec (.settleExpiry l) s = .next (settleEnds l s) := congrArg Host.Outcome.next (if_pos ⟨hp, h⟩)

theorem exec_settleExpiry_stopped (h : (s.driver l).settleTimer = .stopped) : exec (.settleExpiry l) s = .next s :=
  congrArg Host.Outcome.next (if_neg fun hr => isRunning_stopped (by rw [← h]; exact hr.2))

/-- R99: a line that would become READY with its input at space settles with its guard timer held (log 13). -/
theorem enterReady_settles (h : (s.lineCtl l).input = .space) :
    enterReady l s = s.setLine l { s.lineCtl l with
      state := .settling, tx := .none, rx := none, replyStart := .stopped, charGap := .stopped, abort := .stopped,
      guard := .held (s.driver l).setup.guardGap } := by
  have hguard (gap : Nat) : guardFor (s.lineCtl l).input gap = .held gap := by
    rw [h]
    rfl
  rw [enterReady_space h, ← enterSettling_atSpace h, enterSettling, State.modLine_eq, LineController.settle, hguard]

/-- R127: the settle timer's expiry with the input at mark. -/
theorem settleEnds_mark (h : (s.lineCtl l).input = .mark) :
    settleEnds l s = select l ((s.setDriver l { s.driver l with settleTimer := .stopped }).setLine l
      { s.lineCtl l with state := .ready, guard := .stopped }) := by
  rw [settleEnds, State.modDriver_eq, enterReady_mark (s := s.setDriver l _) h, State.lineCtl_setDriver]

theorem settleEnds_space (h : (s.lineCtl l).input = .space) :
    settleEnds l s = select l ((s.setDriver l { s.driver l with settleTimer := .stopped }).setLine l
      { s.lineCtl l with
        state := .settling, tx := .none, rx := none, replyStart := .stopped, charGap := .stopped, abort := .stopped,
        guard := .held (s.driver l).setup.guardGap }) := by
  rw [settleEnds, State.modDriver_eq, enterReady_settles (s := s.setDriver l _) h, State.lineCtl_setDriver,
    State.driver_setDriver_self]

/-- Settles O34: each timer running and stopped; the settle timer also by the level of the receive input. -/
theorem driverTimersExpire : Obligations.DriverTimersExpire := by
  intro s l d
  exact ⟨exec_budgetWindowExpiry, exec_budgetWindowExpiry_stopped, exec_drainExpiry, exec_drainExpiry_stopped,
    fun hp hr h => (exec_settleExpiry hp hr).trans (congrArg _ (settleEnds_mark h)),
    fun hp hr h => (exec_settleExpiry hp hr).trans (congrArg _ (settleEnds_space h)), exec_settleExpiry, settleEnds_mark,
    settleEnds_space, exec_settleExpiry_stopped⟩

/-! ### A line powered (R126, R127, R133) -/

/-- R126, R133, Section 11.1: the write of a power epoch into the setup record of its line. -/
def powerEpochEntry (base : Word) (l : Line) (epoch : Word) : WriteEntry :=
  { addr := base + 0x40 + BitVec.ofNat 32 (0x40 * l.val) + 0x34, data := wordBytes epoch, agent := 0, writer := .driver l,
    op := .powerEpoch l }

theorem writePowerEpoch_eq (l : Line) (s : State) :
    writePowerEpoch l s = handOver (powerEpochEntry s.unit.workBase l (s.driver l).powerEpoch) s := rfl

theorem power_eq (l : Line) (s : State) :
    power l s = (s.setLine l { s.lineCtl l with state := .powering }).setDriver l
      { s.driver l with settleTimer := .running (s.driver l).setup.settle } := rfl

theorem settleAtOnce_expires (hp : (s.lineCtl l).state = .powering) (h : (s.driver l).setup.settle = 0) :
    settleAtOnce l s = settleEnds l s := if_pos ⟨hp, h⟩

theorem settleAtOnce_runs (h : (s.driver l).setup.settle ≠ 0) : settleAtOnce l s = s := if_neg fun hc => h hc.2

theorem settleAtOnce_notPowering (h : (s.lineCtl l).state ≠ .powering) : settleAtOnce l s = s := if_neg fun hc => h hc.1

/-! ### LINE_RESTORE (R133) -/

theorem exec_lineRestore (h : s.Accepts k lineRestoreCode) :
    exec (.lineRestore k l) s = .next (restoreLine k l (s.taken k (wordOf lineRestoreCode l 0 0))) :=
  congrArg Host.Outcome.next (takeWord_accepted _ h (show lineRestoreCode ≠ resetCode by decide))

/-- R133: the sum of the sources that are active. -/
theorem tripSum_eq (d : Driver) : d.tripSum =
    (if d.overcurrent then 1 else 0) + (if d.tripInput then 2 else 0) +
      (if d.zone = .hot ∧ d.setup.hotBudget = 0 then 4 else 0) := by
  simp only [Driver.tripSum, Driver.thermal, Bool.and_eq_true, decide_eq_true_eq]

theorem restoreLine_wrongState (h : (s.lineCtl l).state ≠ .cut) : restoreLine k l s = postVerdict k .wrongState 0 s :=
  if_pos h

theorem restoreLine_stillTripped (h : (s.lineCtl l).state = .cut) (hs : (s.driver l).tripSum ≠ 0) :
    restoreLine k l s = postVerdict k .stillTripped (BitVec.ofNat 16 (s.driver l).tripSum) s :=
  (if_neg (not_not_intro h)).trans (if_pos hs)

theorem restoreLine_holdMark (h : (s.lineCtl l).state = .cut) (hs : (s.driver l).tripSum = 0)
    (hc : (s.driver l).setup.cutoff = .holdMark) :
    restoreLine k l s = select l (enterSettling l (postVerdict k .done 0 s)) :=
  (if_neg (not_not_intro h)).trans ((if_neg (not_not_intro hs)).trans (if_pos hc))

/-- R133, R135: a line powered again, with the write of its new power epoch. -/
def State.repowered (s : State) (l : Line) : State :=
  handOver (powerEpochEntry s.unit.workBase l ((s.driver l).powerEpoch + 1))
    ((s.setLine l { s.lineCtl l with state := .powering }).setDriver l { s.driver l with
      powerEpoch := (s.driver l).powerEpoch + 1, settleTimer := .running (s.driver l).setup.settle })

theorem setLine_setDriver (s : State) (l m : Line) (d : Driver) (c : LineController) :
    (s.setDriver l d).setLine m c = (s.setLine m c).setDriver l d := rfl

theorem writePowerEpoch_power (l : Line) (s : State) :
    writePowerEpoch l (power l (s.setDriver l { s.driver l with powerEpoch := (s.driver l).powerEpoch + 1 })) =
      s.repowered l := by
  simp only [writePowerEpoch_eq, power_eq, State.repowered, setLine_setDriver, State.driver_setDriver_self,
    State.setDriver_setDriver, State.lineCtl_setDriver]
  rfl

theorem restoreLine_repowers (h : (s.lineCtl l).state = .cut) (hs : (s.driver l).tripSum = 0)
    (hc : (s.driver l).setup.cutoff ≠ .holdMark) :
    restoreLine k l s = settleAtOnce l ((postPending k s).repowered l) := by
  refine (if_neg (not_not_intro h)).trans ((if_neg (not_not_intro hs)).trans ((if_neg hc).trans ?_))
  exact congrArg (settleAtOnce l) (writePowerEpoch_power l (postPending k s))

/-- R127: a line powered again is POWERING until its settle time is over; a settle time of 0 is over at once. -/
theorem settleAtOnce_repowered (l : Line) (s : State) :
    ((s.driver l).setup.settle ≠ 0 → settleAtOnce l (s.repowered l) = s.repowered l) ∧
      ((s.driver l).setup.settle = 0 → settleAtOnce l (s.repowered l) = settleEnds l (s.repowered l)) := by
  have hdriver : ((s.repowered l).driver l).setup = (s.driver l).setup := by
    simp only [State.repowered, handOver, State.driver_setPort, State.driver_setDriver_self]
  have hline : ((s.repowered l).lineCtl l).state = .powering := by
    simp only [State.repowered, handOver, State.lineCtl_setPort, State.lineCtl_setDriver, State.lineCtl_setLine_self]
  rw [← hdriver]
  exact ⟨settleAtOnce_runs, settleAtOnce_expires hline⟩

/-- Settles O31: LINE_RESTORE by the line's state, the sources and the cutoff level. -/
theorem lineRestoreByCutoffLevel : Obligations.LineRestoreByCutoffLevel := by
  intro s l h d sum up
  let w := wordOf lineRestoreCode l 0 0
  have hsum : d.tripSum = sum := tripSum_eq d
  have hup : (s.inProgress 0 w).repowered l = up := rfl
  obtain ⟨hruns, hexpires⟩ := settleAtOnce_repowered l (s.inProgress 0 w)
  have hrepowers (hc : (s.lineCtl l).state = .cut) (h0 : sum = 0) (hm : d.setup.cutoff ≠ .holdMark) :
      exec (.lineRestore 0 l) s = .next (settleAtOnce l ((s.inProgress 0 w).repowered l)) := by
    rw [exec_lineRestore h, restoreLine_repowers (s := s.taken 0 w) hc (hsum.trans h0) hm, postPending_taken]
  refine ⟨fun hc => ?_, fun hc => ⟨fun h0 => ?_, fun h0 hm => ?_, fun h0 hm hs => ?_, fun h0 hm hs => ?_⟩⟩
  · rw [exec_lineRestore h, restoreLine_wrongState (s := s.taken 0 w) hc, postVerdict_taken]
    rfl
  · rw [exec_lineRestore h, restoreLine_stillTripped (s := s.taken 0 w) hc (by rw [← hsum] at h0; exact h0),
      postVerdict_taken, ← hsum]
    rfl
  · rw [exec_lineRestore h, restoreLine_holdMark (s := s.taken 0 w) hc (hsum.trans h0) hm, postVerdict_taken]
    rfl
  · rw [hrepowers hc h0 hm, hruns hs, hup]
  · rw [hrepowers hc h0 hm, hexpires hs, hup]

/-! ### LINE_ENABLE (R126) -/

theorem exec_lineEnable (h : s.Accepts k lineEnableCode) :
    exec (.lineEnable k l) s = .next (enableLine k l (s.taken k (wordOf lineEnableCode l 0 0))) :=
  congrArg Host.Outcome.next (takeWord_accepted _ h (show lineEnableCode ≠ resetCode by decide))

theorem enableLine_wrongState (h : (s.lineCtl l).state ≠ .disabled) :
    enableLine k l s = postVerdict k .wrongState 0 s := if_pos h

theorem enableLine_asks (h : (s.lineCtl l).state = .disabled) :
    enableLine k l s = askRead
      { addr := lineRecordAddr s.unit.workBase l, length := 64, agent := 0, requester := .driver l, op := .setup l,
        live := true } (postPending k s) := if_neg (not_not_intro h)

/-- Settles O26: LINE_ENABLE by the state of its line. -/
theorem lineEnableAsksForSetup : Obligations.LineEnableAsksForSetup := by
  refine fun s l h => ⟨fun hd => ?_, fun hd => ?_⟩
  · rw [exec_lineEnable h, enableLine_wrongState (s := s.taken 0 _) hd, postVerdict_taken]
    rfl
  · rw [exec_lineEnable h, enableLine_asks (s := s.taken 0 _) hd, postPending_taken]
    rfl

/-! ### The answers to the epoch writes (R126, R133, R137) -/

theorem writeValue_accepted (a : WriteAnswer) : writeValue (acceptedBy a) = if a = .accept then 0 else 1 := by
  cases a <;> rfl

theorem exec_powerEpochWriteAnswer {e : WriteEntry} {a : WriteAnswer} (hw : s.Writing e) (ho : e.op = .powerEpoch l) :
    exec (.powerEpochWriteAnswer a) s = .next (powerEpochAnswered (acceptedBy a) s.afterWrite) := by
  have hanswer := answerWrite_writing WriteOp.isPowerEpoch a hw (by rw [ho]; rfl)
  rw [deliverWrite, ho] at hanswer
  exact congrArg Host.Outcome.next hanswer

theorem exec_epochWriteAnswer {e : WriteEntry} {a : WriteAnswer} (hw : s.Writing e) (ho : e.op = .epochs l) :
    exec (.epochWriteAnswer a) s = .next (epochsAnswered l (acceptedBy a) s.afterWrite) := by
  have hanswer := answerWrite_writing WriteOp.isEpochs a hw (by rw [ho]; rfl)
  rw [deliverWrite, ho] at hanswer
  exact congrArg Host.Outcome.next hanswer

/-- Settles O29: the two answers, each with the value that says whether its write was accepted. -/
theorem epochWritesAnswered : Obligations.EpochWritesAnswered := by
  intro s e l a hw u value
  refine ⟨fun ho => ?_, fun ho => ?_⟩
  · rw [exec_powerEpochWriteAnswer hw ho, powerEpochAnswered, writeValue_accepted]
  · rw [exec_epochWriteAnswer hw ho, epochsAnswered, writeValue_accepted, State.modDriver_eq]

end Sys2Proof.Machine
end

section
/-! The line setup record (R124, R125): its checks in their order, and the setup that a good record gives. -/

namespace Sys2Proof.Machine

variable {data : List Byte}

/-! ### The fields of a record (Section 11.1) -/

/-- The byte at a place of a record, as a number. -/
abbrev byteNat (data : List Byte) (i : Nat) : Nat := (byteAt data i).toNat

/-- The field of two bytes at a place of a record, as a number. -/
abbrev halfNat (data : List Byte) (i : Nat) : Nat := byteNat data i + 256 * byteNat data (i + 1)

/-- The station table base of a setup record, as a number. -/
abbrev tableNat (data : List Byte) : Nat :=
  byteNat data 0x18 + 256 * byteNat data 0x19 + 65536 * byteNat data 0x1A + 16777216 * byteNat data 0x1B

theorem toNat_append_byte {w : Nat} (x : BitVec w) (b : Byte) : (x ++ b).toNat = b.toNat + 256 * x.toNat := by
  rw [BitVec.toNat_append, ← Nat.shiftLeft_add_eq_or_of_lt b.isLt, Nat.shiftLeft_eq]
  omega

theorem toNat_halfAt (data : List Byte) (i : Nat) : (halfAt data i).toNat = halfNat data i := toNat_append_byte _ _

theorem toNat_tableBase (data : List Byte) : (wordAt data 0x18).toNat = tableNat data := by
  unfold wordAt
  rw [toNat_append_byte, toNat_append_byte, toNat_append_byte]
  simp only [tableNat, byteNat, Nat.reduceAdd]
  omega

theorem code_cases {code : Nat} (h : code ≤ 3) : code = 0 ∨ code = 1 ∨ code = 2 ∨ code = 3 := by omega

theorem cutoffOf_eq (b : Byte) :
    cutoffOf b = if b.toNat = 0 then some .float else if b.toNat = 1 then some .holdMark
      else if b.toNat = 2 then some .holdSpace else if b.toNat = 3 then some .ignore else none := by
  unfold cutoffOf
  simp only [← BitVec.toNat_inj]
  rfl

theorem getD_cutoffOf {b : Byte} (h : b.toNat ≤ 3) :
    (cutoffOf b).getD .float = if b.toNat = 0 then .float else if b.toNat = 1 then .holdMark
      else if b.toNat = 2 then .holdSpace else .ignore := by
  rw [cutoffOf_eq]
  obtain hcode | hcode | hcode | hcode := code_cases h <;>
    (rw [hcode]; rfl)

/-- The setup that a record gives, each field of R124 from its place. -/
def recordSetup (data : List Byte) : Setup :=
  let code := byteNat data 0x0B
  { speed := byteNat data 0x00, parity := decide (byteNat data 0x01 ≠ 0), replyStart := halfNat data 0x02,
    charGap := byteNat data 0x04, guardGap := byteNat data 0x05, busyBackoff := halfNat data 0x06,
    retryLimit := byteNat data 0x08, quarantineLimit := byteNat data 0x09, releaseLevel := byteNat data 0x0A,
    cutoff := if code = 0 then .float else if code = 1 then .holdMark else if code = 2 then .holdSpace else .ignore,
    drainPeriod := halfNat data 0x0C, warm := byteNat data 0x0E, hot := byteNat data 0x0F, coolBudget := byteNat data 0x10,
    warmBudget := byteNat data 0x11, hotBudget := byteNat data 0x12, window := byteNat data 0x13,
    overcurrent := byteNat data 0x14, settle := halfNat data 0x16, tableBase := BitVec.ofNat 32 (tableNat data) }

/-- Where the cutoff code names a level, the model reads the record as R124 does. -/
theorem setupOf_eq (h : byteNat data 0x0B ≤ 3) :
    setupOf data ((cutoffOf (byteAt data 0x0B)).getD .float) = recordSetup data := by
  have hcutoff : (cutoffOf (byteAt data 0x0B)).getD .float = (recordSetup data).cutoff := getD_cutoffOf h
  have hbase : wordAt data 0x18 = BitVec.ofNat 32 (tableNat data) := by
    rw [← toNat_tableBase, BitVec.ofNat_toNat, BitVec.setWidth_eq]
  have hparity : decide (byteAt data 0x01 ≠ 0) = decide (byteNat data 0x01 ≠ 0) :=
    decide_eq_decide.mpr (not_congr BitVec.toNat_inj.symm)
  rw [hcutoff, setupOf, toNat_halfAt, toNat_halfAt, toNat_halfAt, toNat_halfAt, hbase, hparity]
  rfl

/-! ### The checks of a record (R125) -/

/-- R125: the record passes the check of this number. -/
def SetupPasses (data : List Byte) : Nat → Prop
  | 2 => byteNat data 0x00 ≤ 7
  | 3 => 1 ≤ halfNat data 0x02 ∧ halfNat data 0x02 ≤ 2000
  | 4 => 2 ≤ byteNat data 0x04 ∧ byteNat data 0x04 ≤ 32
  | 5 => 1 ≤ byteNat data 0x05 ∧ byteNat data 0x05 ≤ 32
  | 6 => 1 ≤ halfNat data 0x06 ∧ halfNat data 0x06 ≤ 5000
  | 7 => byteNat data 0x08 ≤ 7
  | 8 => 1 ≤ byteNat data 0x09 ∧ byteNat data 0x09 ≤ 15 ∧ byteNat data 0x0A < byteNat data 0x09
  | 9 => 1 ≤ halfNat data 0x0C
  | 10 => (40 ≤ byteNat data 0x0E ∧ byteNat data 0x0E ≤ 150) ∧ (40 ≤ byteNat data 0x0F ∧ byteNat data 0x0F ≤ 150) ∧
      byteNat data 0x0E < byteNat data 0x0F
  | 11 => (byteNat data 0x10 ≠ 0 → byteNat data 0x11 ≠ 0 ∧ byteNat data 0x11 ≤ byteNat data 0x10) ∧
      (byteNat data 0x11 ≠ 0 → byteNat data 0x12 ≤ byteNat data 0x11)
  | 12 => 1 ≤ byteNat data 0x13 ∧ byteNat data 0x13 ≤ 100
  | 13 => 1 ≤ byteNat data 0x14 ∧ byteNat data 0x14 ≤ 50
  | 14 => byteNat data 0x0B ≤ 3 ∧ ¬(byteNat data 0x0B = 3 ∧ byteNat data 0x12 = 0)
  | 15 => halfNat data 0x16 ≤ 5000
  | 16 => tableNat data % 32 = 0
  | _ => True

theorem inRange_iff (low n high : Nat) : inRange low n high = true ↔ low ≤ n ∧ n ≤ high := by
  simp only [inRange, Bool.and_eq_true, decide_eq_true_eq]

/-- R125 check 11: the ranks of the budgets do not rise; a budget of 0 is unlimited but for HOT. -/
theorem budgets_iff {cool warm hot : Nat} (hcool : cool < 256) (hwarm : warm < 256) (hhot : hot < 256) :
    (budgetRank warm ≤ budgetRank cool ∧ hot ≤ budgetRank warm) ↔
      (cool ≠ 0 → warm ≠ 0 ∧ warm ≤ cool) ∧ (warm ≠ 0 → hot ≤ warm) := by
  unfold budgetRank
  split <;> split <;> omega

/-- R125 check 14: the code names a cutoff level, and IGNORE goes with no HOT budget of 0. -/
theorem cutoff_iff (b : Byte) (hot : Nat) :
    ((cutoffOf b).isNone || (decide ((cutoffOf b).getD .float = .ignore) && decide (hot = 0))) = true ↔
      ¬(b.toNat ≤ 3 ∧ ¬(b.toNat = 3 ∧ hot = 0)) := by
  rw [cutoffOf_eq]
  by_cases h : b.toNat ≤ 3
  · obtain hcode | hcode | hcode | hcode := code_cases h <;>
      (rw [hcode]; by_cases hhot : hot = 0 <;> simp [hhot])
  · rw [if_neg (by omega), if_neg (by omega), if_neg (by omega), if_neg (by omega)]
    exact ⟨fun _ hnamed => h hnamed.1, fun _ => rfl⟩

/-! ### The first check that fails -/

/-- The verdict of the first check of a list that fails, or `ok` where none does. -/
def firstFailure {ε α : Type} (passes : Nat → Prop) [DecidablePred passes] (verdict : Nat → ε) (ok : α) :
    List Nat → Except ε α
  | [] => .ok ok
  | n :: rest => if ¬passes n then .error (verdict n) else firstFailure passes verdict ok rest

section

variable {ε α : Type} {passes : Nat → Prop} [DecidablePred passes] {verdict : Nat → ε} {ok : α}

/-- One check written out: it fails under `bad`, and the rest of the checks follow. -/
theorem firstFailure_cons {n : Nat} {rest : List Nat} {bad : Prop} [Decidable bad] {e : ε} {r : Except ε α}
    (h : bad ↔ ¬passes n) (he : e = verdict n) (hr : r = firstFailure passes verdict ok rest) :
    (if bad then .error e else r) = firstFailure passes verdict ok (n :: rest) := by
  rw [he, hr]
  exact ite_congr (propext h) (fun _ => rfl) fun _ => rfl

theorem firstFailure_range {n : Nat} (hbefore : ∀ m : Nat, m < n → passes m) (h : ¬passes n) (k a : Nat) (ha : a ≤ n)
    (hk : n < a + k) : firstFailure passes verdict ok (List.range' a k) = .error (verdict n) := by
  induction k generalizing a with
  | zero => omega
  | succ k ih =>
    rw [List.range'_succ, firstFailure]
    by_cases hn : a = n
    · rw [hn, if_pos h]
    · rw [if_neg (not_not_intro (hbefore a (by omega)))]
      exact ih (a + 1) (by omega) (by omega)

theorem firstFailure_none {ns : List Nat} (h : ∀ n ∈ ns, passes n) : firstFailure passes verdict ok ns = .ok ok := by
  induction ns with
  | nil => rfl
  | cons n ns ih =>
    obtain ⟨hn, hns⟩ := List.forall_mem_cons.mp h
    rw [firstFailure, if_neg (not_not_intro hn), ih hns]

theorem passes_of_firstFailure {ns : List Nat} {x : α} (h : firstFailure passes verdict ok ns = .ok x) :
    ∀ n ∈ ns, passes n := by
  induction ns with
  | nil => nofun
  | cons n ns ih =>
    rw [firstFailure] at h
    split at h
    · cases h
    · next hn => exact List.forall_mem_cons.mpr ⟨Decidable.not_not.mp hn, ih h⟩

end

/-- R125: the checks 2 to 16, one after another. -/
theorem checkSetup_accept [DecidablePred (SetupPasses data)] :
    checkSetup (.accept data) = firstFailure (SetupPasses data) (fun n => (.invalidSetup, BitVec.ofNat 16 n))
      (setupOf data ((cutoffOf (byteAt data 0x0B)).getD .float)) (List.range' 2 15) := by
  have hbyte (i : Nat) : byteNat data i < 256 := (byteAt data i).isLt
  have hrange {low n high : Nat} : (!inRange low n high) = true ↔ ¬(low ≤ n ∧ n ≤ high) := by
    rw [Bool.not_eq_true', ← Bool.not_eq_true, inRange_iff]
  simp only [checkSetup, setupOf, toNat_halfAt, toNat_tableBase]
  show _ = firstFailure _ _ _ [2, 3, 4, 5, 6, 7, 8, 9, 10, 11, 12, 13, 14, 15, 16]
  refine firstFailure_cons Nat.not_le.symm rfl <| firstFailure_cons hrange rfl <| firstFailure_cons hrange rfl <|
    firstFailure_cons hrange rfl <| firstFailure_cons hrange rfl <| firstFailure_cons Nat.not_le.symm rfl <|
    firstFailure_cons ?_ rfl <| firstFailure_cons ?_ rfl <| firstFailure_cons ?_ rfl <| firstFailure_cons ?_ rfl <|
    firstFailure_cons hrange rfl <| firstFailure_cons hrange rfl <| firstFailure_cons ?_ rfl <|
    firstFailure_cons Nat.not_le.symm rfl <| firstFailure_cons Iff.rfl rfl rfl
  · rw [Bool.not_eq_true', ← Bool.not_eq_true, Bool.and_eq_true, inRange_iff, decide_eq_true_eq, and_assoc]
    rfl
  · exact Nat.lt_one_iff.symm.trans Nat.not_le.symm
  · rw [Bool.not_eq_true', ← Bool.not_eq_true, Bool.and_eq_true, Bool.and_eq_true, inRange_iff, inRange_iff,
      decide_eq_true_eq, and_assoc (a := _ ∧ _)]
    rfl
  · rw [Bool.not_eq_true', ← Bool.not_eq_true, Bool.and_eq_true, decide_eq_true_eq, decide_eq_true_eq,
      budgets_iff (hbyte _) (hbyte _) (hbyte _)]
    rfl
  · exact cutoff_iff _ _

/-- The checks before 2 and after 16 are none. -/
theorem two_le_of_fails {n : Nat} (h : ¬SetupPasses data n) : 2 ≤ n := by
  match n with
  | 0 => exact absurd trivial h
  | 1 => exact absurd trivial h
  | _ + 2 => omega

theorem checkSetup_fails {n : Nat} (hn : n ≤ 16) (hbefore : ∀ m : Nat, m < n → SetupPasses data m)
    (h : ¬SetupPasses data n) : checkSetup (.accept data) = .error (.invalidSetup, BitVec.ofNat 16 n) := by
  classical
  rw [checkSetup_accept, firstFailure_range hbefore h 15 2 (two_le_of_fails h) (by omega)]

theorem checkSetup_passes (h : ∀ n : Nat, n ≤ 16 → SetupPasses data n) :
    checkSetup (.accept data) = .ok (recordSetup data) := by
  classical
  rw [checkSetup_accept, firstFailure_none fun n hn => h n (by rw [List.mem_range'_1] at hn; omega), setupOf_eq (h 14 _).1]
  decide

theorem passes_of_checkSetup {u : Setup} (h : checkSetup (.accept data) = .ok u) (n : Nat) (hn : n ≤ 16) :
    SetupPasses data n := by
  classical
  refine Classical.byContradiction fun hfails => ?_
  rw [checkSetup_accept] at h
  exact hfails (passes_of_firstFailure h n (List.mem_range'_1.mpr ⟨two_le_of_fails hfails, by omega⟩))

theorem setup_of_checkSetup {u : Setup} (h : checkSetup (.accept data) = .ok u) : u = recordSetup data :=
  Except.ok.inj (h.symm.trans (checkSetup_passes (passes_of_checkSetup h)))

theorem cutoff_recordSetup (h : byteNat data 0x0B ≤ 3) : (recordSetup data).cutoff = .ignore ↔ byteNat data 0x0B = 3 := by
  simp only [recordSetup]
  obtain hcode | hcode | hcode | hcode := code_cases h <;>
    (rw [hcode]; decide)

theorem tableBase_recordSetup (data : List Byte) : (recordSetup data).tableBase.toNat % 32 = tableNat data % 32 :=
  (congrArg (· % 32) (BitVec.toNat_ofNat (tableNat data) 32)).trans (Nat.mod_mod_of_dvd _ (by decide))

/-- Settles O27: the first check that fails, and the setup of a record that passes them all. -/
theorem setupInForceIsLegal : Obligations.SetupInForceIsLegal := by
  refine ⟨rfl, fun data => ?_, fun data u h => ?_⟩
  · exact ⟨fun n hn hbefore h => checkSetup_fails hn hbefore h, checkSetup_passes,
      fun u h => ⟨setup_of_checkSetup h, passes_of_checkSetup h⟩⟩
  · have hp := passes_of_checkSetup h
    obtain ⟨hquarantine, hfifteen, hrelease⟩ := hp 8 (by decide)
    obtain ⟨⟨hwarm, -⟩, ⟨-, hhot⟩, hrises⟩ := hp 10 (by decide)
    obtain ⟨hcool, hbudget⟩ := hp 11 (by decide)
    obtain ⟨hcode, hignore⟩ := hp 14 (by decide)
    rw [setup_of_checkSetup h]
    refine ⟨hp 2 (by decide), hp 3 (by decide), hp 4 (by decide), hp 5 (by decide), hp 6 (by decide), hp 7 (by decide),
      ⟨hquarantine, hfifteen⟩, hrelease, hp 9 (by decide), ⟨hwarm, hrises, hhot⟩, hp 12 (by decide), hp 13 (by decide),
      ?_, hp 15 (by decide), (tableBase_recordSetup data).trans (hp 16 (by decide)), hcool, hbudget⟩
    rw [cutoff_recordSetup hcode]
    exact hignore

end Sys2Proof.Machine
end

section
/-! The answer to the setup read of LINE_ENABLE (R125 to R127, R130 to R132). -/

namespace Sys2Proof.Machine

variable {s : State} {l : Line} {u : Setup} {data : List Byte}

/-! ### The answer (R125) -/

theorem exec_setupReadAnswer {r : ReadRequest} {a : ReadAnswer} (hr : s.Reading r) (ho : r.op = .setup l)
    (hl : a.hasLength r.length = true) : exec (.setupReadAnswer a) s = .next (setupAnswered l a s.afterRead) := by
  have hanswer := answerRead_reading ReadOp.isSetup a hr (by rw [ho]; rfl) hl
  rw [deliverRead, ho, if_neg (by rw [hr.2]; nofun)] at hanswer
  exact congrArg Host.Outcome.next hanswer

theorem setupAnswered_refused {a : ReadAnswer} {v : VerdictCode × Half} (hd : (s.lineCtl l).state = .disabled)
    (hp : s.unit.partState = .opened) (h : checkSetup a = .error v) :
    setupAnswered l a s = postVerdict 0 v.1 v.2 s := by
  refine (if_neg (not_or_intro (not_not_intro hd) (not_not_intro hp))).trans ?_
  rw [h]

theorem setupAnswered_accepts (hd : (s.lineCtl l).state = .disabled) (hp : s.unit.partState = .opened)
    (h : checkSetup (.accept data) = .ok u) :
    setupAnswered l (.accept data) s = acceptSetup l u (wordAt data 0x30) (wordAt data 0x34) s := by
  refine (if_neg (not_or_intro (not_not_intro hd) (not_not_intro hp))).trans ?_
  rw [h]
  rfl

/-! ### The line brought up (R126) -/

/-- R126 steps 1 to 5: what bringing a line up makes of its Driver Monitor. -/
def Driver.broughtUp (d : Driver) (u : Setup) (drainEpoch powerEpoch : Word) : Driver :=
  { d with setup := u, drainEpoch := drainEpoch, powerEpoch := powerEpoch, zone := .cool, windowCount := 0,
           windowTimer := .running (100 * u.window), drainTimer := .running u.drainPeriod,
           settleTimer := .running u.settle }

/-- R130: the monitor looks at both of its inputs. -/
def Driver.looking (d : Driver) : Driver := { d with overcurrent := d.pinOvercurrent, tripInput := d.pinTripInput }

/-- R126 steps 1 to 6: the line POWERING and its sources looked at, none of them taken yet. -/
def State.lookedUp (s : State) (l : Line) (u : Setup) (drainEpoch powerEpoch : Word) : State :=
  (s.setLine l { s.lineCtl l with state := .powering }).setDriver l
    ((s.driver l).looking.broughtUp u drainEpoch powerEpoch)

variable {drainEpoch powerEpoch : Word}

theorem driver_lookedUp (s : State) (l : Line) (u : Setup) (drainEpoch powerEpoch : Word) :
    (s.lookedUp l u drainEpoch powerEpoch).driver l = (s.driver l).looking.broughtUp u drainEpoch powerEpoch :=
  State.driver_setDriver_self _ _ _

theorem state_lookedUp (s : State) (l : Line) (u : Setup) (drainEpoch powerEpoch : Word) :
    ((s.lookedUp l u drainEpoch powerEpoch).lineCtl l).state = .powering := by
  rw [State.lookedUp, State.lineCtl_setDriver, State.lineCtl_setLine_self]

/-- R126: bringing line `l` up touches no other line. -/
theorem lookedUp_others (s : State) (u : Setup) (drainEpoch powerEpoch : Word) {m : Line} (hm : m ≠ l) :
    (s.lookedUp l u drainEpoch powerEpoch).lineCtl m = s.lineCtl m ∧
      (s.lookedUp l u drainEpoch powerEpoch).driver m = s.driver m ∧
      (s.lookedUp l u drainEpoch powerEpoch).sched m = s.sched m :=
  ⟨State.lineCtl_setLine_ne _ _ hm, State.driver_setDriver_ne _ _ hm, rfl⟩

/-- R126 step 6: the active inputs in the order in which their onsets are taken, and the choices made for it (log 4). -/
def State.onsetOrder (s : State) (l : Line) : List TripPin × Nat := freeOrder s.choices (s.driver l).activePins

theorem mem_activePins (d : Driver) (p : TripPin) : p ∈ d.activePins ↔ d.pin p = true := by
  cases p <;> simp [Driver.activePins]

theorem mem_onsetOrder (s : State) (l : Line) (p : TripPin) :
    p ∈ (s.onsetOrder l).1 ↔ (s.driver l).pin p = true := by
  rw [State.onsetOrder, (freeOrder_perm _ _).mem_iff, mem_activePins]

theorem nodup_onsetOrder (s : State) (l : Line) : (s.onsetOrder l).1.Nodup :=
  (freeOrder_perm _ _).nodup_iff.mpr (List.Pairwise.filter _ (show [TripPin.overcurrent, .tripInput].Nodup by decide))

theorem onsetOrder_quiet (h : (s.driver l).activePins = []) : s.onsetOrder l = ([], s.choices) := by
  rw [State.onsetOrder, h, freeOrder]

/-- R126 step 6: the onsets taken, one after another. -/
def State.onsetsTaken (s : State) (l : Line) (u : Setup) (drainEpoch powerEpoch : Word) : State :=
  (s.onsetOrder l).1.foldl (fun t p => takeOnset l (tripPlace p) t)
    ((s.lookedUp l u drainEpoch powerEpoch).setChoices (s.onsetOrder l).2)

theorem lookAtSources_eq (l : Line) (s : State) :
    lookAtSources l s = (s.modDriver l Driver.looking).inFreeOrder ((s.modDriver l Driver.looking).driver l).activePins
      fun p t => takeOnset l (tripPlace p) t := rfl

theorem acceptSetup_eq (l : Line) (u : Setup) (drainEpoch powerEpoch : Word) (s : State) :
    acceptSetup l u drainEpoch powerEpoch s =
      settleAtOnce l (writePowerEpoch l (s.onsetsTaken l u drainEpoch (powerEpoch + 1))) := by
  have hlooked : (power l (s.modDriver l (·.enable u drainEpoch powerEpoch))).modDriver l Driver.looking =
      s.lookedUp l u drainEpoch (powerEpoch + 1) := by
    rw [power_eq]
    simp only [State.modDriver_eq, State.driver_setDriver_self, setLine_setDriver, State.setDriver_setDriver]
    rfl
  have hsources : lookAtSources l (power l (s.modDriver l (·.enable u drainEpoch powerEpoch))) =
      s.onsetsTaken l u drainEpoch (powerEpoch + 1) := by
    rw [lookAtSources_eq, hlooked, driver_lookedUp]
    rfl
  rw [← hsources]
  rfl

/-- A trip of a CUT line changes nothing. -/
theorem foldl_takeOnset_cut (h : (s.lineCtl l).state = .cut) (ps : List TripPin) :
    ps.foldl (fun t p => takeOnset l (tripPlace p) t) s = s := by
  induction ps with
  | nil => rfl
  | cons p ps ih => rw [List.foldl_cons, takeOnset_disregarded (.inr h), ih]

/-- R132: with cutoff level IGNORE every onset is logged and changes nothing else. -/
theorem foldl_takeOnset_ignored (hd : (s.lineCtl l).state ≠ .disabled) (hc : (s.lineCtl l).state ≠ .cut)
    (h : (s.driver l).setup.cutoff = .ignore) (ps : List TripPin) :
    ps.foldl (fun t p => takeOnset l (tripPlace p) t) s =
      s.setLog (ps.foldl (fun g p => g.record .tripIgnored l (tripPlace p) 0) s.log) := by
  induction ps generalizing s with
  | nil => rfl
  | cons p ps ih =>
    rw [List.foldl_cons, takeOnset_ignored hd hc h]
    exact ih (s := s.setLog (s.log.record .tripIgnored l (tripPlace p) 0)) hd hc h

/-! ### By the inputs and the cutoff level (R127, R131, R132) -/

theorem activePins_eq_nil (d : Driver) : d.activePins = [] ↔ d.pinOvercurrent = false ∧ d.pinTripInput = false := by
  rw [List.eq_nil_iff_forall_not_mem]
  simp only [mem_activePins, Bool.not_eq_true]
  refine ⟨fun h => ⟨h .overcurrent, h .tripInput⟩, fun h p => ?_⟩
  cases p
  · exact h.1
  · exact h.2

/-- R130: with both inputs inactive no onset is taken. -/
theorem onsetsTaken_quiet (h : (s.driver l).activePins = []) :
    s.onsetsTaken l u drainEpoch powerEpoch = s.lookedUp l u drainEpoch powerEpoch := by
  rw [State.onsetsTaken, onsetOrder_quiet h]
  rfl

/-- R131: the onset taken first cuts the line, and what is taken after it changes nothing. -/
theorem onsetsTaken_cuts (h : (s.driver l).activePins ≠ []) (hi : u.cutoff ≠ .ignore)
    (hw : (s.driver l).disable ≠ .waitingExchange) :
    ∃ (p : TripPin) (n : Nat), (s.driver l).pin p = true ∧
      s.onsetsTaken l u drainEpoch powerEpoch =
        cutLine l (tripPlace p) ((s.lookedUp l u drainEpoch powerEpoch).setChoices n) ∧
      LineCut l (tripPlace p) ((s.lookedUp l u drainEpoch powerEpoch).setChoices n)
        (s.onsetsTaken l u drainEpoch powerEpoch) := by
  obtain ⟨p, rest, horder⟩ : ∃ p rest, (s.onsetOrder l).1 = p :: rest := by
    refine List.exists_cons_of_ne_nil fun hnil => h ?_
    have hperm := freeOrder_perm (s.driver l).activePins s.choices
    rw [← State.onsetOrder, hnil] at hperm
    exact hperm.nil_eq.symm
  let t := (s.lookedUp l u drainEpoch powerEpoch).setChoices (s.onsetOrder l).2
  have hstate : (t.lineCtl l).state = .powering := state_lookedUp s l u drainEpoch powerEpoch
  have hdriver : t.driver l = (s.driver l).looking.broughtUp u drainEpoch powerEpoch :=
    driver_lookedUp s l u drainEpoch powerEpoch
  have hd : (t.lineCtl l).state ≠ .disabled := by rw [hstate]; nofun
  have hc : (t.lineCtl l).state ≠ .cut := by rw [hstate]; nofun
  have hcut : LineCut l (tripPlace p) t (cutLine l (tripPlace p) t) :=
    lineCut_cutLine _ hd (by rw [hdriver]; exact hw)
  have htaken : s.onsetsTaken l u drainEpoch powerEpoch = cutLine l (tripPlace p) t := by
    rw [State.onsetsTaken, horder, List.foldl_cons, takeOnset_cuts hd hc (by rw [hdriver]; exact hi)]
    exact foldl_takeOnset_cut (by rw [hcut.lineCtl]; rfl) rest
  refine ⟨p, (s.onsetOrder l).2, (mem_onsetOrder s l p).mp (by rw [horder]; exact List.mem_cons_self), htaken, ?_⟩
  rw [htaken]
  exact hcut

/-- R132: with cutoff level IGNORE the onsets are logged. -/
theorem onsetsTaken_ignored (hi : u.cutoff = .ignore) :
    s.onsetsTaken l u drainEpoch powerEpoch =
      ((s.lookedUp l u drainEpoch powerEpoch).setChoices (s.onsetOrder l).2).setLog
        ((s.onsetOrder l).1.foldl (fun g p => g.record .tripIgnored l (tripPlace p) 0) s.log) := by
  have hstate := state_lookedUp s l u drainEpoch powerEpoch
  exact foldl_takeOnset_ignored (s := (s.lookedUp l u drainEpoch powerEpoch).setChoices (s.onsetOrder l).2)
    (by rw [State.lineCtl_setChoices, hstate]; nofun) (by rw [State.lineCtl_setChoices, hstate]; nofun)
    (by rw [State.driver_setChoices, driver_lookedUp]; exact hi) _

/-- R127: a line that is not cut at LINE_ENABLE is POWERING until its settle time is over; a settle time of 0 is over at once. -/
theorem settleAtOnce_broughtUp {t : State} (hp : (t.lineCtl l).state = .powering) (hu : (t.driver l).setup = u) :
    (u.settle ≠ 0 → settleAtOnce l t = t) ∧ (u.settle = 0 → settleAtOnce l t = settleEnds l t) := by
  rw [← hu]
  exact ⟨settleAtOnce_runs, settleAtOnce_expires hp⟩

/-- R126 step 7: the line as its sources have left it, with the write of the power epoch handed over. -/
theorem acceptSetup_writes {t : State} (h : s.onsetsTaken l u drainEpoch (powerEpoch + 1) = t)
    (hb : t.unit.workBase = s.unit.workBase) (he : (t.driver l).powerEpoch = powerEpoch + 1) :
    acceptSetup l u drainEpoch powerEpoch s =
      settleAtOnce l (handOver (powerEpochEntry s.unit.workBase l (powerEpoch + 1)) t) := by
  rw [acceptSetup_eq, h, writePowerEpoch_eq, hb, he]

/-- R126: both inputs inactive. -/
theorem acceptSetup_quiet (h : (s.driver l).activePins = []) :
    let v := handOver (powerEpochEntry s.unit.workBase l (powerEpoch + 1)) (s.lookedUp l u drainEpoch (powerEpoch + 1))
    (u.settle ≠ 0 → acceptSetup l u drainEpoch powerEpoch s = v) ∧
      (u.settle = 0 → acceptSetup l u drainEpoch powerEpoch s = settleEnds l v) := by
  intro v
  have hdriver := driver_lookedUp s l u drainEpoch (powerEpoch + 1)
  rw [acceptSetup_writes (onsetsTaken_quiet h) rfl (by rw [hdriver]; rfl)]
  exact settleAtOnce_broughtUp (t := v) (state_lookedUp s l u drainEpoch (powerEpoch + 1)) (congrArg Driver.setup hdriver)

/-- R126, R132: the cutoff level IGNORE. -/
theorem acceptSetup_ignored (hi : u.cutoff = .ignore) :
    let v := handOver (powerEpochEntry s.unit.workBase l (powerEpoch + 1))
      (((s.lookedUp l u drainEpoch (powerEpoch + 1)).setChoices (s.onsetOrder l).2).setLog
        ((s.onsetOrder l).1.foldl (fun g p => g.record .tripIgnored l (tripPlace p) 0) s.log))
    (u.settle ≠ 0 → acceptSetup l u drainEpoch powerEpoch s = v) ∧
      (u.settle = 0 → acceptSetup l u drainEpoch powerEpoch s = settleEnds l v) := by
  intro v
  have hdriver := driver_lookedUp s l u drainEpoch (powerEpoch + 1)
  rw [acceptSetup_writes (onsetsTaken_ignored hi) rfl
    (by rw [State.driver_setLog, State.driver_setChoices, hdriver]; rfl)]
  exact settleAtOnce_broughtUp (t := v) (state_lookedUp s l u drainEpoch (powerEpoch + 1)) (congrArg Driver.setup hdriver)

/-- R126, R131: an active input and a cutoff level that cuts. -/
theorem acceptSetup_cuts (h : (s.driver l).activePins ≠ []) (hi : u.cutoff ≠ .ignore)
    (hw : (s.driver l).disable ≠ .waitingExchange) :
    ∃ (p : TripPin) (n : Nat) (t : State), (s.driver l).pin p = true ∧
      t = cutLine l (tripPlace p) ((s.lookedUp l u drainEpoch (powerEpoch + 1)).setChoices n) ∧
      LineCut l (tripPlace p) ((s.lookedUp l u drainEpoch (powerEpoch + 1)).setChoices n) t ∧ t.pending = s.pending ∧
      acceptSetup l u drainEpoch powerEpoch s = handOver (powerEpochEntry s.unit.workBase l (powerEpoch + 1)) t := by
  obtain ⟨p, n, hp, htaken, hcut⟩ :=
    onsetsTaken_cuts (u := u) (drainEpoch := drainEpoch) (powerEpoch := powerEpoch + 1) h hi hw
  have hmoves : Moves tripKinds ((s.lookedUp l u drainEpoch (powerEpoch + 1)).setChoices n)
      (s.onsetsTaken l u drainEpoch (powerEpoch + 1)) := by
    rw [htaken]
    refine cutLine_moves _ _ _ ?_
    rw [State.lineCtl_setChoices, state_lookedUp]
    nofun
  refine ⟨p, n, _, hp, htaken, hcut, hmoves.pending_eq, ?_⟩
  rw [acceptSetup_writes rfl hmoves.workBase_eq
    (by rw [hcut.driver, State.driver_setChoices, driver_lookedUp]; rfl)]
  refine settleAtOnce_notPowering ?_
  rw [handOver, State.lineCtl_setPort, hcut.lineCtl]
  nofun

end Sys2Proof.Machine

namespace Sys2Proof

open Machine

/-- Settles O28: the answer by its checks; a good record by the inputs and the cutoff level. -/
theorem setupAnswered : Obligations.SetupAnswered := by
  intro s r l a hr ho hl hd hp
  refine ⟨fun v hv => ?_, fun data u ha h => ?_⟩
  · rw [exec_setupReadAnswer hr ho hl, setupAnswered_refused (s := s.afterRead) hd hp hv]
  · intro quiet epoch powerWrite up t active place looked
    subst ha
    have hplace : place = tripPlace := funext fun p => by cases p <;> rfl
    have hactive (p : TripPin) : active p ↔ (s.driver l).pin p = true := by cases p <;> rfl
    have hquiet : quiet ↔ (s.driver l).activePins = [] := (activePins_eq_nil _).symm
    have hexec : exec (.setupReadAnswer (.accept data)) s =
        .next (acceptSetup l u (wordAt data 0x30) (wordAt data 0x34) s.afterRead) := by
      rw [exec_setupReadAnswer hr ho hl, setupAnswered_accepts (s := s.afterRead) hd hp h]
    rw [hexec, hplace]
    have hup (hq : quiet) : handOver powerWrite looked = t := by
      obtain ⟨hovercurrent, htripInput⟩ := hq
      simp only [looked, t, hovercurrent, htripInput]
    refine ⟨fun hq hs => ?_, fun hq hs => ?_, fun hq hi hw => ?_, fun hi => ?_⟩
    · rw [(acceptSetup_quiet (s := s.afterRead) (hquiet.mp hq)).1 hs, ← hup hq]
      rfl
    · rw [(acceptSetup_quiet (s := s.afterRead) (hquiet.mp hq)).2 hs, ← hup hq]
      rfl
    · obtain ⟨p, n, c, hpin, hc, hcut, hpending, haccept⟩ :=
        acceptSetup_cuts (s := s.afterRead) (u := u) (drainEpoch := wordAt data 0x30) (powerEpoch := wordAt data 0x34)
          (fun hnil => hq (hquiet.mpr hnil)) hi hw
      have hdriver : (c.driver l).powerEpoch = epoch ∧ (c.driver l).setup = u ∧ (c.driver l).settleTimer = .stopped := by
        rw [hcut.driver, State.driver_setChoices, driver_lookedUp]
        exact ⟨rfl, rfl, rfl⟩
      obtain ⟨hepoch, hsetup, hsettle⟩ := hdriver
      refine ⟨handOver powerWrite c, congrArg _ haccept, congrArg LineController.state hcut.lineCtl, hepoch,
        hsetup, hsettle, fun m hm => ?_, hcut.backlog, hcut.partState, hpending, p, n, (hactive p).mpr hpin,
        congrArg _ hc, hcut.log⟩
      obtain ⟨hline, hdriver, hsched⟩ := hcut.others m hm
      obtain ⟨hline', hdriver', hsched'⟩ := lookedUp_others s.afterRead u (wordAt data 0x30) epoch hm
      exact ⟨hline.trans hline', hdriver.trans hdriver', hsched.trans hsched'⟩
    · obtain ⟨hruns, hexpires⟩ := acceptSetup_ignored (s := s.afterRead) (l := l) (drainEpoch := wordAt data 0x30)
        (powerEpoch := wordAt data 0x34) hi
      exact ⟨(s.onsetOrder l).1, (s.onsetOrder l).2, nodup_onsetOrder s l,
        fun p => (mem_onsetOrder s l p).trans (hactive p).symm, fun hs => congrArg _ (hruns hs),
        fun hs => congrArg _ (hexpires hs)⟩

end Sys2Proof
end

section
/-! The Fault Log (R146, R148): what a reported fault writes, what the writes of agent 0 clear, and the resets. -/

namespace Sys2Proof.Machine

variable {s : State} {g : FaultLog} {kind : FaultKind} {l : Line} {place : Byte} {k : Agent} {value : Word}

/-! ### Reports (R146) -/

/-- R146: while FAULT_FIRST is not valid, a fault fills it. -/
theorem FaultLog.record_first (h : g.valid = false) :
    g.record kind l place k = { g with valid := true, kind := kind, line := l, place := place, agent := k } :=
  if_neg (by simp [h])

/-- R146: while FAULT_FIRST is valid, a fault marks its kind in FAULT_NEXT and is counted. -/
theorem FaultLog.record_next (h : g.valid = true) :
    g.record kind l place k = { g with
      nextMask := g.nextMask ||| BitVec.twoPow 7 kind.code,
      nextCount := if g.nextCount < 255 then g.nextCount + 1 else g.nextCount } :=
  if_pos h

/-! ### Resets (R157, R158) -/

theorem log_pinReset (s : State) : (pinReset s).log = FaultLog.reset := rfl

theorem log_partReset (k : Agent) (s : State) : (partReset k s).log = s.log := rfl

/-- R158: RESET_PART of agent 0 is carried out whatever stands in its bank. -/
theorem exec_resetPart (s : State) : exec (.resetPart 0) s = .next (partReset 0 s) :=
  congrArg Host.Outcome.next (takeWord_reset _ s)

/-- Settles O39, by whether FAULT_FIRST is valid, and by the kind of reset. -/
theorem faultLogKeepsFirst : Obligations.FaultLogKeepsFirst := by
  refine ⟨fun s kind l place k => ⟨fun h => ?_, fun h => ?_⟩, fun s => ⟨?_, ?_⟩⟩
  · exact congrArg s.setLog (FaultLog.record_first h)
  · exact congrArg s.setLog (FaultLog.record_next h)
  · exact ⟨pinReset s, rfl, log_pinReset s⟩
  · exact ⟨partReset 0 s, exec_resetPart s, log_partReset 0 s⟩

/-! ### The registers FAULT_FIRST and FAULT_NEXT (R148) -/

/-- A write that clears nothing: of another agent, or with a 0 in the clear position. -/
theorem not_agentZero_and_clear {i : Nat} (h : k ≠ 0 ∨ value.getLsbD i = false) : ¬(k = 0 ∧ value.getLsbD i = true) := by
  rintro ⟨hk, hv⟩
  rcases h with h | h
  · exact h hk
  · exact Bool.noConfusion (h.symm.trans hv)

theorem writeFaultFirst_clears (h : value.getLsbD 0 = true) :
    writeFaultFirst 0 value s = s.setLog { s.log with valid := false } := if_pos ⟨rfl, h⟩

theorem writeFaultFirst_ignored (h : k ≠ 0 ∨ value.getLsbD 0 = false) : writeFaultFirst k value s = s :=
  if_neg (not_agentZero_and_clear h)

theorem writeFaultNext_clears (h : value.getLsbD 31 = true) :
    writeFaultNext 0 value s = s.setLog { s.log with nextMask := 0, nextCount := 0 } := if_pos ⟨rfl, h⟩

theorem writeFaultNext_ignored (h : k ≠ 0 ∨ value.getLsbD 31 = false) : writeFaultNext k value s = s :=
  if_neg (not_agentZero_and_clear h)

/-- Settles O38, by the agent and the clear position of each register. -/
theorem faultRegistersCleared : Obligations.FaultRegistersCleared := by
  intro s k value
  refine ⟨?_, fun h => ?_, ?_, fun h => ?_⟩
  · rintro rfl h
    exact congrArg Host.Outcome.next (writeFaultFirst_clears h)
  · exact congrArg Host.Outcome.next (writeFaultFirst_ignored h)
  · rintro rfl h
    exact congrArg Host.Outcome.next (writeFaultNext_clears h)
  · exact congrArg Host.Outcome.next (writeFaultNext_ignored h)

end Sys2Proof.Machine
end

section
/-! The conditions of an agent bit by bit, its attention line, and SUMMARY (R144, R145, R150). -/

namespace Sys2Proof.Machine

variable {s : State} {k : Agent}

/-! ### Flags and their bits -/

/-- A flag put at bit `i` of a register shows there and nowhere else. -/
theorem getLsbD_flag {w i : Nat} (b : Bool) (hi : i < w) (n : Nat) :
    (if b then BitVec.twoPow w i else 0 : BitVec w).getLsbD n = (b && decide (i = n)) := by
  cases b <;> simp [BitVec.getLsbD_twoPow, hi]

/-- Two masks have a bit in common. -/
theorem and_ne_zero_iff {w : Nat} (x y : BitVec w) :
    x &&& y ≠ 0 ↔ ∃ n : Nat, x.getLsbD n = true ∧ y.getLsbD n = true := by
  have hbits : x &&& y = 0 ↔ ∀ n : Nat, ¬(x.getLsbD n = true ∧ y.getLsbD n = true) := by
    simp only [← Bool.and_eq_true, ← BitVec.getLsbD_and, Bool.not_eq_true]
    refine ⟨fun h n => ?_, fun h => BitVec.eq_of_getLsbD_eq fun n _ => (h n).trans BitVec.getLsbD_zero.symm⟩
    rw [h]
    exact BitVec.getLsbD_zero
  rw [ne_eq, hbits, Classical.not_forall]
  simp only [Classical.not_not]

theorem someLineCut_iff : s.someLineCut = true ↔ ∃ l : Line, (s.lineCtl l).state = .cut := by
  have hall (l : Line) : l ∈ allFour := by revert l; decide
  simp [State.someLineCut, hall]

/-! ### The conditions (R144) -/

/-- The condition of an agent that SUMMARY shows at bit `n` (R144, Section 11.5). -/
def State.summaryFlag (s : State) (k : Agent) : Nat → Bool
  | 1 => (s.alarm k).note
  | 2 => decide (0 < (s.alarm k).count)
  | 3 => (s.alarm k).overflow
  | 4 => (s.bank k).overrun
  | 5 => decide (k = 0) && s.log.valid
  | 6 => decide (k = 0) && s.someLineCut
  | _ => false

theorem getLsbD_summary (s : State) (k : Agent) (n : Nat) : (s.summary k).getLsbD n = s.summaryFlag k n := by
  simp only [State.summary, BitVec.getLsbD_or, getLsbD_flag _ (by decide : 1 < 7), getLsbD_flag _ (by decide : 2 < 7),
    getLsbD_flag _ (by decide : 3 < 7), getLsbD_flag _ (by decide : 4 < 7), getLsbD_flag _ (by decide : 5 < 7),
    getLsbD_flag _ (by decide : 6 < 7)]
  match n with
  | 0 | 1 | 2 | 3 | 4 | 5 | 6 => simp [State.summaryFlag]
  | n + 7 => simp [State.summaryFlag]

/-- PENDING stands at bit 0, and above it the flags of SUMMARY. -/
theorem getLsbD_conditions_zero : (s.conditions k).getLsbD 0 = true ↔ s.mask k ≠ 0 := by
  rw [State.conditions, BitVec.getLsbD_or, getLsbD_summary]
  split
  · next h => simp [State.summaryFlag, h]
  · next h => simpa [State.summaryFlag] using h

theorem getLsbD_conditions_succ (n : Nat) : (s.conditions k).getLsbD (n + 1) = s.summaryFlag k (n + 1) := by
  rw [State.conditions, BitVec.getLsbD_or, getLsbD_summary]
  split <;> simp

/-! ### The flags that are conditions of agent 0 alone or compare a count -/

theorem summaryFlag_alarms : s.summaryFlag k 2 = true ↔ 0 < (s.alarm k).count := decide_eq_true_iff

theorem summaryFlag_fault : s.summaryFlag k 5 = true ↔ k = 0 ∧ s.log.valid = true := by
  simp [State.summaryFlag]

theorem summaryFlag_cut : s.summaryFlag k 6 = true ↔ k = 0 ∧ ∃ l : Line, (s.lineCtl l).state = .cut := by
  simp [State.summaryFlag, someLineCut_iff]

theorem summaryFlag_above {n : Nat} (h : 7 ≤ n) : s.summaryFlag k n = false := by
  obtain ⟨m, rfl⟩ := Nat.exists_eq_add_of_le' h
  rfl

/-! ### The attention line (R145) -/

theorem attention_iff :
    s.attention k = true ↔ ∃ n : Nat, (s.conditions k).getLsbD n = true ∧ (s.bank k).enable.getLsbD n = true :=
  decide_eq_true_iff.trans (and_ne_zero_iff _ _)

/-- Settles O36: each condition is the flag at its bit, and the line is high while conditions and mask share a bit. -/
theorem attentionFollowsConditions : Obligations.AttentionFollowsConditions := by
  refine ⟨fun _ _ _ => rfl, fun s k => ?_⟩
  simp only [getLsbD_conditions_succ]
  exact ⟨getLsbD_conditions_zero, rfl, summaryFlag_alarms, rfl, rfl, summaryFlag_fault, summaryFlag_cut, attention_iff⟩

/-! ### SUMMARY (R150) -/

theorem readLanes_whole (value : Word) : readLanes value 0 4 = value := by
  simp only [readLanes, Nat.mul_zero, BitVec.ushiftRight_zero, Nat.reduceMul, Nat.sub_self, BitVec.and_allOnes]

theorem getLsbD_summaryWord (s : State) (k : Agent) (n : Nat) :
    ((s.summary k).setWidth 32).getLsbD n = s.summaryFlag k n := by
  rw [BitVec.getLsbD_setWidth, getLsbD_summary]
  by_cases h : n < 32
  · simp [h]
  · simp [summaryFlag_above (show 7 ≤ n by omega)]

/-- Settles O37: the register shows the flags at their bits, and the read clears NOTE and OVERRUN. -/
theorem summaryReadClears : Obligations.SummaryReadClears := by
  intro s k first count value
  simp only [value, getLsbD_summaryWord]
  exact ⟨rfl, readLanes_whole _, rfl, rfl, summaryFlag_alarms, rfl, rfl, summaryFlag_fault, summaryFlag_cut,
    fun n => summaryFlag_above⟩

end Sys2Proof.Machine
end

section
/-! The Alarm Unit's lists: what a free list does next, case by case (R139 to R143), and the answers to its appends and overflow
writes. -/

namespace Sys2Proof.Machine

variable {s : State} {k : Agent}

@[simp] theorem alarm_askRead (r : ReadRequest) (s : State) (k : Agent) : (askRead r s).alarm k = s.alarm k := rfl

@[simp] theorem alarm_alarmWrite (k : Agent) (addr : Word) (data : List Byte) (op : WriteOp) (s : State) (j : Agent) :
    (alarmWrite k addr data op s).alarm j = s.alarm j := rfl

@[simp] theorem alarm_postVerdict (k : Agent) (v : VerdictCode) (n : Half) (s : State) (j : Agent) :
    (postVerdict k v n s).alarm j = s.alarm j := rfl

/-! ### A take that waits goes first (R142) -/

theorem serveTake_busy (h : (s.alarm k).op ≠ .none) : serveTake k s = s := by
  unfold serveTake
  split
  · next ho _ => exact absurd ho h
  · rfl

theorem serveTake_noTake (h : (s.alarm k).take = none) : serveTake k s = s := by
  unfold serveTake
  rw [h]
  split
  · next ht => cases ht
  · rfl

theorem serveTake_starts {n : Nat} (ho : (s.alarm k).op = .none) (ht : (s.alarm k).take = some n) :
    serveTake k s = startTake k n s := by
  unfold serveTake
  rw [ho, ht]

/-- R142: a take that is acted on ends at once or becomes its list's operation. -/
theorem startTake_settles (k : Agent) (n : Nat) (s : State) :
    ((startTake k n s).alarm k).op ≠ .none ∨ ((startTake k n s).alarm k).take = none := by
  unfold startTake
  dsimp only
  split
  · exact .inr (by simp [AlarmList.endTake])
  · split
    · exact .inr (by simp [AlarmList.endTake])
    · refine .inl ?_
      split
      · simp [takeCountWrite]
      · simp

theorem serveTake_startTake (k : Agent) (n : Nat) (s : State) : serveTake k (startTake k n s) = startTake k n s :=
  (startTake_settles k n s).elim serveTake_busy serveTake_noTake

/-- R142: a free list acts on the take that waits, and then goes on as it stands. -/
theorem pumpList_startTake {n : Nat} (ho : (s.alarm k).op = .none) (ht : (s.alarm k).take = some n) :
    pumpList k s = pumpList k (startTake k n s) := by
  unfold pumpList
  rw [serveTake_starts ho ht, serveTake_startTake]

/-! ### What a list without a take does next (R140, R141, R143) -/

theorem pumpList_busy (h : (s.alarm k).op ≠ .none) : pumpList k s = s := by
  unfold pumpList
  rw [serveTake_busy h]
  exact if_pos h

/-- A list with neither operation nor take: its clearing comes first, then an append, then the overflow write. -/
theorem pumpList_free (ho : (s.alarm k).op = .none) (ht : (s.alarm k).take = none) :
    pumpList k s =
      if (s.alarm k).clearOwed then clearWrite k (s.setAlarm k (s.alarm k).cleared)
      else
        match (s.alarm k).waiting with
        | x :: _ => beginAppend k x s
        | [] => if (s.alarm k).overflowOwed then beginOverflowWrite k s else s := by
  unfold pumpList
  rw [serveTake_noTake ht]
  exact if_neg (not_not_intro ho)

theorem pumpList_clears (ho : (s.alarm k).op = .none) (ht : (s.alarm k).take = none)
    (hc : (s.alarm k).clearOwed = true) :
    pumpList k s = clearWrite k (s.setAlarm k (s.alarm k).cleared) :=
  (pumpList_free ho ht).trans (if_pos hc)

theorem pumpList_appends {x : Alarm} {rest : List Alarm} (ho : (s.alarm k).op = .none) (ht : (s.alarm k).take = none)
    (hc : (s.alarm k).clearOwed = false) (hw : (s.alarm k).waiting = x :: rest) :
    pumpList k s = beginAppend k x s := by
  rw [pumpList_free ho ht, hc, hw]
  rfl

theorem pumpList_overflow (ho : (s.alarm k).op = .none) (ht : (s.alarm k).take = none)
    (hc : (s.alarm k).clearOwed = false) (hw : (s.alarm k).waiting = []) (hv : (s.alarm k).overflowOwed = true) :
    pumpList k s = beginOverflowWrite k s := by
  rw [pumpList_free ho ht, hc, hw, hv]
  rfl

theorem pumpList_idle (ho : (s.alarm k).op = .none) (ht : (s.alarm k).take = none)
    (hc : (s.alarm k).clearOwed = false) (hw : (s.alarm k).waiting = []) (hv : (s.alarm k).overflowOwed = false) :
    pumpList k s = s := by
  rw [pumpList_free ho ht, hc, hw, hv]
  rfl

/-! ### The hand-off (R139) -/

theorem AlarmList.handOff_room {a : AlarmList} {x : Alarm} (h : a.count + a.waiting.length < alarmCapacity) :
    a.handOff x = { a with waiting := a.waiting ++ [x] } := if_pos h

theorem AlarmList.handOff_full {a : AlarmList} {x : Alarm} (h : alarmCapacity ≤ a.count + a.waiting.length) :
    a.handOff x = { a with overflow := true, overflowOwed := a.overflowOwed || !a.overflow } :=
  if_neg (Nat.not_lt.mpr h)

/-! ### Answers (R140, R141) -/

@[simp] theorem alarm_logReject (answer : WriteAnswer) (kind : FaultKind) (l : Line) (place : Byte) (k j : Agent)
    (s : State) : (s.logReject answer kind l place k).alarm j = s.alarm j := by
  cases answer <;> rfl

/-- R147: a count word write that is rejected is recorded as the loss it is. -/
theorem countWordLost_eq (k : Agent) (answer : WriteAnswer) (s : State) :
    countWordLost k (acceptedBy answer) s = s.logReject answer .alarmLost 0 0 k := by
  cases answer <;> rfl

/-- R140: an append that has ended. -/
theorem AlarmList.endAppend_cons {a : AlarmList} {x : Alarm} {rest : List Alarm} (h : a.waiting = x :: rest)
    (counted : Bool) :
    a.endAppend counted =
      { a with waiting := rest, count := if counted then a.count + 1 else a.count, op := .none } := by
  unfold AlarmList.endAppend
  rw [h]

theorem entryAnswered_accepted :
    entryAnswered k true s = handOver
      { addr := alarmListAddr s.unit.workBase k, data := countWord ((s.alarm k).count + 1) (s.alarm k).overflow,
        agent := k, writer := .alarmUnit, op := .appendCount k }
      (s.setAlarm k { s.alarm k with overflowOwed := false }) := rfl

/-- R140: an append has failed: its alarm `x` is lost, recorded with its line, station and agent, and the list is free. -/
def State.appendLost (s : State) (k : Agent) (x : Alarm) (rest : List Alarm) : State :=
  (s.setLog (s.log.record .alarmLost x.line x.station k)).setAlarm k { s.alarm k with waiting := rest, op := .none }

section
variable {x : Alarm} {rest : List Alarm} (h : (s.alarm k).waiting = x :: rest)
include h

theorem endAppend_lost : (alarmLost k s).modAlarm k (·.endAppend false) = s.appendLost k x rest := by
  have hlost : alarmLost k s = s.setLog (s.log.record .alarmLost x.line x.station k) := by
    unfold alarmLost
    rw [h]
    rfl
  rw [hlost, State.modAlarm_eq, State.alarm_setLog, AlarmList.endAppend_cons h]
  rfl

theorem entryAnswered_rejected : entryAnswered k false s = pumpList k (s.appendLost k x rest) :=
  congrArg (pumpList k) (endAppend_lost h)

theorem appendCountAnswered_rejected : appendCountAnswered k false s = pumpList k (s.appendLost k x rest) :=
  congrArg (pumpList k) (endAppend_lost h)

theorem appendCountAnswered_accepted :
    appendCountAnswered k true s =
      pumpList k (s.setAlarm k { s.alarm k with waiting := rest, count := (s.alarm k).count + 1, op := .none }) :=
  congrArg (fun a => pumpList k (s.setAlarm k a)) (AlarmList.endAppend_cons h true)

end

theorem overflowAnswered_eq (answer : WriteAnswer) :
    overflowAnswered k (acceptedBy answer) s =
      pumpList k ((s.logReject answer .alarmLost 0 0 k).setAlarm k { s.alarm k with op := .none }) := by
  unfold overflowAnswered
  rw [countWordLost_eq, State.modAlarm_eq, alarm_logReject]

section
variable {e : WriteEntry} {answer : WriteAnswer}

/-- R166: the answer reaches the operation that the write on the bus belongs to. -/
theorem answerWrite_op {op : WriteOp} (isKind : WriteOp → Bool) (answer : WriteAnswer) (hw : s.Writing e) (he : e.op = op)
    (hk : isKind op = true) :
    answerWrite isKind answer s = deliverWrite { e with op := op } (acceptedBy answer) s.afterWrite := by
  subst he
  exact answerWrite_writing isKind answer hw hk

theorem exec_alarmEntryWriteAnswer (hw : s.Writing e) (he : e.op = .alarmEntry k) :
    exec (.alarmEntryWriteAnswer answer) s = .next (entryAnswered k (acceptedBy answer) s.afterWrite) :=
  congrArg Host.Outcome.next (answerWrite_op _ answer hw he rfl)

theorem exec_alarmCountWriteAnswer_append (hw : s.Writing e) (he : e.op = .appendCount k) :
    exec (.alarmCountWriteAnswer answer) s = .next (appendCountAnswered k (acceptedBy answer) s.afterWrite) :=
  congrArg Host.Outcome.next (answerWrite_op _ answer hw he rfl)

theorem exec_alarmCountWriteAnswer_overflow (hw : s.Writing e) (he : e.op = .overflowCount k) :
    exec (.alarmCountWriteAnswer answer) s = .next (overflowAnswered k (acceptedBy answer) s.afterWrite) :=
  congrArg Host.Outcome.next (answerWrite_op _ answer hw he rfl)

end

/-- Settles O45: the room test, what a free list does next in its order, and the answers by the write they answer. -/
theorem alarmsAppended : Obligations.AlarmsAppended := by
  refine ⟨fun s k x => ?_, fun s e k hw => ?_⟩
  · intro a
    refine ⟨fun h => ?_, fun h => ?_, pumpList_busy, pumpList_clears, fun ho ht hc => ?_⟩
    · rw [handOffAlarm, State.modAlarm_eq, AlarmList.handOff_room h]
    · rw [handOffAlarm, State.modAlarm_eq, AlarmList.handOff_full h]
    · exact ⟨fun y rest => pumpList_appends ho ht hc, pumpList_overflow ho ht hc, pumpList_idle ho ht hc⟩
  · intro u a
    refine ⟨fun he => ?_, fun x rest hx => ?_, fun answer he => ?_⟩
    · rw [exec_alarmEntryWriteAnswer hw he, acceptedBy, entryAnswered_accepted]
      rfl
    · intro lost
      have hlost : pumpList k (u.appendLost k x rest) = lost := rfl
      refine ⟨fun he => ?_, fun he => ?_, fun he => ?_⟩
      · rw [exec_alarmEntryWriteAnswer hw he, acceptedBy, entryAnswered_rejected hx, hlost]
      · rw [exec_alarmCountWriteAnswer_append hw he, acceptedBy, appendCountAnswered_rejected hx, hlost]
      · rw [exec_alarmCountWriteAnswer_append hw he, acceptedBy, appendCountAnswered_accepted hx]
    · rw [exec_alarmCountWriteAnswer_overflow hw he, overflowAnswered_eq]

end Sys2Proof.Machine
end

section
/-! ALARMS_TAKEN (R142), from the command to its verdict. -/

namespace Sys2Proof.Machine

variable {s : State} {k : Agent} {n : Nat}

/-! ### The take acts on the count (R142) -/

theorem startTake_refused (h : (s.alarm k).count < n) :
    startTake k n s = postVerdict k .invalidArgument 0 (s.setAlarm k (s.alarm k).endTake) := if_pos h

theorem startTake_counts :
    startTake k 0 s = postVerdict k .done (BitVec.ofNat 16 (s.alarm k).count) (s.setAlarm k (s.alarm k).endTake) := rfl

theorem startTake_reads (hn : n ≠ 0) (h : n < (s.alarm k).count) :
    startTake k n s = askRead
      { addr := alarmEntryAddr s.unit.workBase k n, length := 4 * ((s.alarm k).count - n), agent := k,
        requester := .alarmUnit, op := .takeEntries k, live := true }
      (s.setAlarm k { s.alarm k with op := .taking }) := by
  unfold startTake
  dsimp only
  rw [if_neg (Nat.not_lt.mpr (Nat.le_of_lt h)), if_neg hn, if_neg (Nat.sub_ne_zero_of_lt h)]
  rfl

theorem startTake_empties (hn : n ≠ 0) (h : n = (s.alarm k).count) :
    startTake k n s = takeCountWrite k 0 (s.setAlarm k { s.alarm k with op := .taking }) := by
  unfold startTake
  dsimp only
  rw [if_neg (Nat.not_lt.mpr (Nat.le_of_eq h)), if_neg hn, if_pos (by rw [h, Nat.sub_self])]
  rfl

/-- A take that ends at once on a free list leaves the list as it stands, without the take. -/
theorem endTake_free {a : AlarmList} (h : a.op = .none) : a.endTake = { a with take := none } :=
  congrArg (fun o => { a with op := o, take := none }) h.symm

/-! ### A free list with a take that waits -/

section
variable (ho : (s.alarm k).op = .none) (ht : (s.alarm k).take = some n)
include ho ht

theorem pumpList_take_refused (h : (s.alarm k).count < n) :
    pumpList k s = pumpList k ((postVerdict k .invalidArgument 0 s).setAlarm k { s.alarm k with take := none }) := by
  rw [pumpList_startTake ho ht, startTake_refused h, endTake_free ho]
  rfl

theorem pumpList_take_counts (h : n = 0) :
    pumpList k s =
      pumpList k ((postVerdict k .done (BitVec.ofNat 16 (s.alarm k).count) s).setAlarm k { s.alarm k with take := none }) := by
  rw [pumpList_startTake ho ht, h, startTake_counts, endTake_free ho]
  rfl

theorem pumpList_take_reads (hn : n ≠ 0) (h : n < (s.alarm k).count) :
    pumpList k s = askRead
      { addr := alarmEntryAddr s.unit.workBase k n, length := 4 * ((s.alarm k).count - n), agent := k,
        requester := .alarmUnit, op := .takeEntries k, live := true }
      (s.setAlarm k { s.alarm k with op := .taking }) := by
  rw [pumpList_startTake ho ht, startTake_reads hn h, pumpList_busy (by simp)]

theorem pumpList_take_empties (hn : n ≠ 0) (h : n = (s.alarm k).count) :
    pumpList k s = handOver
      { addr := alarmListAddr s.unit.workBase k, data := countWord 0 false, agent := k, writer := .alarmUnit,
        op := .takeCount k }
      (s.setAlarm k { s.alarm k with op := .taking, overflowOwed := false }) := by
  rw [pumpList_startTake ho ht, startTake_empties hn h, pumpList_busy (by simp [takeCountWrite])]
  unfold takeCountWrite
  rw [State.modAlarm_eq, State.alarm_setAlarm_self, State.setAlarm_setAlarm]
  rfl

end

/-! ### The command -/

/-- The state in which an ALARMS_TAKEN of `n` waits for its list. -/
def State.takeWaits (s : State) (k : Agent) (n : Half) : State :=
  (s.inProgress k (wordOf alarmsTakenCode 0 0 n)).setAlarm k { s.alarm k with take := some n.toNat }

@[simp] theorem alarm_takeWaits (s : State) (k : Agent) (n : Half) :
    (s.takeWaits k n).alarm k = { s.alarm k with take := some n.toNat } := get_upd_self _ _ _

@[simp] theorem setAlarm_takeWaits (s : State) (k : Agent) (n : Half) (a : AlarmList) :
    (s.takeWaits k n).setAlarm k a = (s.inProgress k (wordOf alarmsTakenCode 0 0 n)).setAlarm k a :=
  State.setAlarm_setAlarm _ k _ a

/-- R142, R152: ALARMS_TAKEN waits for its list, which acts on it at once where it is free. -/
theorem exec_alarmsTaken {n : Half} (h : s.Accepts k alarmsTakenCode) :
    exec (.alarmsTaken k n) s = .next (pumpList k (s.takeWaits k n)) := by
  refine (congrArg Host.Outcome.next (takeWord_accepted _ h (show alarmsTakenCode ≠ resetCode by decide))).trans ?_
  unfold takeAlarms
  rw [postPending_taken]
  rfl

/-- A take refused or answered at once leaves its verdict and its list without a take. -/
theorem endsAtOnce_takeWaits (s : State) (k : Agent) (n : Half) (code : VerdictCode) (value : Half) :
    (postVerdict k code value (s.takeWaits k n)).setAlarm k { (s.takeWaits k n).alarm k with take := none } =
      (s.posted k alarmsTakenCode code value).setAlarm k { s.alarm k with take := none } := by
  have hposted : postVerdict k code value (s.inProgress k (wordOf alarmsTakenCode 0 0 n)) =
      s.posted k alarmsTakenCode code value := by
    unfold postVerdict State.posted State.inProgress
    rw [State.modBank_eq, setBank_setBank, State.bank_setBank_self]
    rfl
  rw [alarm_takeWaits, ← hposted]
  exact congrArg (postVerdict k code value) (setAlarm_takeWaits s k n _)

/-! ### Answers (R142) -/

theorem exec_takeReadAnswer {r : ReadRequest} {a : ReadAnswer} (hr : s.Reading r) (ho : r.op = .takeEntries k)
    (hl : a.hasLength r.length = true) : exec (.takeReadAnswer a) s = .next (takeReadAnswered k a s.afterRead) := by
  refine congrArg Host.Outcome.next ((answerRead_reading _ a hr (by rw [ho]; rfl) hl).trans ?_)
  rw [deliverRead, hr.2, ho]
  rfl

theorem takeReadAnswered_reject :
    takeReadAnswered k .reject s =
      pumpList k (postVerdict k .loadFault 1 (s.setAlarm k { s.alarm k with op := .none, take := none })) := rfl

theorem takeReadAnswered_accept (data : List Byte) :
    takeReadAnswered k (.accept data) s = handOver
      { addr := alarmEntryAddr s.unit.workBase k 0, data := moveBytes data, agent := k, writer := .alarmUnit,
        op := .takeMove k } s := rfl

theorem moveAnswered_accepted :
    moveAnswered k true s = handOver
      { addr := alarmListAddr s.unit.workBase k, data := countWord (s.alarm k).remaining false, agent := k,
        writer := .alarmUnit, op := .takeCount k } (s.setAlarm k { s.alarm k with overflowOwed := false }) := rfl

theorem moveAnswered_rejected :
    moveAnswered k false s =
      pumpList k (postVerdict k .loadFault 2 (s.setAlarm k { s.alarm k with op := .none, take := none })) := rfl

theorem takeCountAnswered_eq (answer : WriteAnswer) :
    takeCountAnswered k (acceptedBy answer) s =
      pumpList k (postVerdict k .done (BitVec.ofNat 16 (s.alarm k).remaining)
        ((s.logReject answer .alarmLost 0 0 k).setAlarm k
          { s.alarm k with count := (s.alarm k).remaining, overflow := false, op := .none, take := none })) := by
  unfold takeCountAnswered
  dsimp only
  rw [countWordLost_eq, State.modAlarm_eq, alarm_logReject]
  rfl

section
variable {e : WriteEntry} {answer : WriteAnswer}

theorem exec_moveWriteAnswer (hw : s.Writing e) (he : e.op = .takeMove k) :
    exec (.moveWriteAnswer answer) s = .next (moveAnswered k (acceptedBy answer) s.afterWrite) :=
  congrArg Host.Outcome.next (answerWrite_op _ answer hw he rfl)

theorem exec_takeCountWriteAnswer (hw : s.Writing e) (he : e.op = .takeCount k) :
    exec (.takeCountWriteAnswer answer) s = .next (takeCountAnswered k (acceptedBy answer) s.afterWrite) :=
  congrArg Host.Outcome.next (answerWrite_op _ answer hw he rfl)

end

/-- Settles O46: the command waits for its list, and a free list acts on a take that waits in the same way whenever it came. -/
theorem alarmsTakenRuns : Obligations.AlarmsTakenRuns := by
  refine ⟨fun s k n h => ?_, fun s k n ho ht => ?_, fun s r k hr hop => ?_, fun s e k hw => ?_⟩
  · intro a t ends
    rw [exec_alarmsTaken h]
    refine ⟨fun ho => ?_, fun ho => ?_⟩
    · exact congrArg _ (pumpList_busy (by rwa [alarm_takeWaits]))
    have hfree : ((s.takeWaits k n).alarm k).op = .none := by rwa [alarm_takeWaits]
    have htake : ((s.takeWaits k n).alarm k).take = some n.toNat := by rw [alarm_takeWaits]
    have hcount : ((s.takeWaits k n).alarm k).count = a.count := by rw [alarm_takeWaits]
    have hpos (hn : n ≠ 0) : n.toNat ≠ 0 := fun h0 => hn (BitVec.eq_of_toNat_eq h0)
    refine ⟨fun hlt => ?_, fun hn => ?_, fun hn hlt => ?_, fun hn heq => ?_⟩
    · rw [pumpList_take_refused hfree htake (by rwa [hcount]), endsAtOnce_takeWaits]
    · rw [pumpList_take_counts hfree htake (by rw [hn]; rfl), endsAtOnce_takeWaits, hcount]
    · rw [pumpList_take_reads hfree htake (hpos hn) (by rwa [hcount]), setAlarm_takeWaits, alarm_takeWaits]
      rfl
    · rw [pumpList_take_empties hfree htake (hpos hn) (by rwa [hcount]), setAlarm_takeWaits, alarm_takeWaits]
      rfl
  · intro a b ends
    exact ⟨pumpList_take_refused ho ht, pumpList_take_counts ho ht, pumpList_take_reads ho ht, pumpList_take_empties ho ht⟩
  · intro u
    refine ⟨?_, fun data hlen => ?_⟩
    · rw [exec_takeReadAnswer hr hop rfl, takeReadAnswered_reject]
    · rw [exec_takeReadAnswer hr hop (hasLength_accept hlen), takeReadAnswered_accept]
  · intro u a m
    have hm : (u.alarm k).remaining = m := rfl
    refine ⟨fun he => ⟨?_, ?_⟩, fun answer he => ?_⟩
    · rw [exec_moveWriteAnswer hw he, acceptedBy, moveAnswered_accepted, hm]
    · rw [exec_moveWriteAnswer hw he, acceptedBy, moveAnswered_rejected]
    · rw [exec_takeCountWriteAnswer hw he, takeCountAnswered_eq, hm]

end Sys2Proof.Machine
end

section
/-! Command words: the checks of R154 in their order, the word that each command spells (R152), and OPEN's command (R155). -/

namespace Sys2Proof.Machine

variable {s : State} {k : Agent} {c : Instr} {w : CommandWord} {code : BitVec 4}

/-! ### The checks (R154) -/

theorem isKnownCode_iff : isKnownCode code = true ↔ 1 ≤ code.toNat ∧ code.toNat ≤ 13 := by
  rw [isKnownCode, Bool.and_eq_true, decide_eq_true_eq, decide_eq_true_eq]

theorem isAdminCode_iff : isAdminCode code = true ↔
    code ∈ [openCode, closeCode, resetCode, lineEnableCode, lineDisableCode, lineRestoreCode] := by
  simp only [isAdminCode, Bool.or_eq_true, decide_eq_true_eq, List.mem_cons, List.not_mem_nil, or_false, or_assoc]

theorem isKnownCode_of_isAdminCode (h : isAdminCode code = true) : isKnownCode code = true := by
  revert code
  decide

/-- R154 check 1: the code is none of the thirteen. -/
theorem refusal_invalidArgument (h : ¬isKnownCode code = true) : s.refusal k code = some .invalidArgument :=
  if_pos (by rw [Bool.not_eq_true', Bool.eq_false_iff]; exact h)

/-- R154 check 2 holds of a word that is taken in any part state, or of one taken in an OPEN part. -/
theorem refusal_taken (hknown : isKnownCode code = true)
    (h : code = openCode ∨ code = resetCode ∨ (s.unit.partState = .opened ∧ s.unit.openInProgress = false)) :
    s.refusal k code = if isAdminCode code && decide (k ≠ 0) then some .notPermitted else none := by
  unfold State.refusal
  rw [if_neg (by rw [hknown]; decide), if_neg]
  rcases h with h | h | ⟨hp, ho⟩
  · simp [h]
  · simp [h]
  · simp [hp, ho]

/-- R154 check 2: neither an OPEN nor a RESET_PART, while the part is not OPEN. -/
theorem refusal_notOpen (hknown : isKnownCode code = true) (ho : code ≠ openCode) (hr : code ≠ resetCode)
    (h : ¬(s.unit.partState = .opened ∧ s.unit.openInProgress = false)) : s.refusal k code = some .notOpen := by
  have hpart : (decide (s.unit.partState = .opened) && !s.unit.openInProgress) = false := by
    rw [Bool.eq_false_iff, Ne, Bool.and_eq_true, decide_eq_true_eq, Bool.not_eq_true']
    exact h
  unfold State.refusal
  rw [if_neg (by rw [hknown]; decide), if_pos (by rw [hpart, decide_eq_true ho, decide_eq_true hr]; rfl)]

/-- R154 check 3: a code of agent 0 alone, written by another agent. -/
theorem refusal_notPermitted (hadmin : isAdminCode code = true) (hk : k ≠ 0)
    (h : code = openCode ∨ code = resetCode ∨ (s.unit.partState = .opened ∧ s.unit.openInProgress = false)) :
    s.refusal k code = some .notPermitted := by
  rw [refusal_taken (isKnownCode_of_isAdminCode hadmin) h, hadmin, decide_eq_true hk]
  rfl

theorem exec_dropped (hc : commandOf c = some (k, w)) (h : (s.bank k).command ≠ none)
    (hr : ¬(k = 0 ∧ w.code = resetCode)) : exec c s = .next (s.setBank k { s.bank k with overrun := true }) := by
  obtain ⟨act, hexec⟩ := exec_command s hc
  rw [hexec, takeWord_dropped act h hr]

theorem exec_refused {v : VerdictCode} (hc : commandOf c = some (k, w)) (h : (s.bank k).command = none)
    (hr : s.refusal k w.code = some v) : exec c s = .next (s.posted k w.code v 0) := by
  obtain ⟨act, hexec⟩ := exec_command s hc
  rw [hexec, takeWord_refused act h hr]

/-- Settles O3: the word by whether a command is in progress, and then by the first check that fails. -/
theorem commandWordChecked : Obligations.CommandWordChecked := by
  intro c k w s hc
  refine ⟨exec_dropped hc, fun h => ⟨fun hunknown => ?_, fun hknown ho hr hp => ?_, fun htaken hadmin hk => ?_⟩⟩
  · exact exec_refused hc h (refusal_invalidArgument (mt isKnownCode_iff.mp hunknown))
  · exact exec_refused hc h (refusal_notOpen (isKnownCode_iff.mpr hknown) ho hr hp)
  · exact exec_refused hc h (refusal_notPermitted (isAdminCode_iff.mpr hadmin) hk htaken)

/-! ### The word that a command spells (R152, Section 11.4) -/

/-- R169: the object field of a word names its slot. -/
theorem slot_wordOf (code : BitVec 4) (l : Line) (i : Slot) (v : Half) : (wordOf code l (slotObject i) v).slot = i := by
  have hbyte : (slotObject i).toNat = i.val := BitVec.toNat_ofNat _ _ |>.trans (Nat.mod_eq_of_lt (by omega))
  exact Fin.ext ((congrArg (· % 32) hbyte).trans (Nat.mod_eq_of_lt i.isLt))

/-- A command that names a slot acts on the slot of its word. -/
theorem takeWord_slot (act : Slot → State → State) (code : BitVec 4) (i : Slot) :
    takeWord k (wordOf code 0 (slotObject i) 0) (act i) s =
      takeWord k (wordOf code 0 (slotObject i) 0) (act (wordOf code 0 (slotObject i) 0).slot) s := by
  rw [slot_wordOf]

/-! ### Register writes (R150, R151) -/

theorem writeAccess_fails {check : Bool} (offset : BitVec 6) (count : Nat) (value : Word) (h : check ≠ checkBit k) :
    writeAccess k check offset count value s = failAccess k offset false s := if_pos h

/-- R150: a write of fewer than 4 bytes, or of bytes of two registers, reaches no register. -/
theorem writeAccess_ignored {offset : BitVec 6} {count : Nat} (value : Word) (h : ¬(count = 4 ∧ offset.toNat % 4 = 0)) :
    writeAccess k (checkBit k) offset count value s = s :=
  (if_neg (not_not_intro rfl)).trans (if_neg h)

theorem writeAccess_reaches {offset : BitVec 6} (value : Word) (h : offset.toNat % 4 = 0) :
    writeAccess k (checkBit k) offset 4 value s = writeRegister k offset.toNat value s :=
  (if_neg (not_not_intro rfl)).trans (if_pos ⟨rfl, h⟩)

/-- R150: every other register takes no write. -/
theorem writeRegister_other {offset : BitVec 6} (value : Word) (h : offset ∉ [0x08, 0x0C, 0x10, 0x14, 0x20]) :
    writeRegister k offset.toNat value s = s := by
  have hne (n : BitVec 6) (hn : n ∈ [0x08, 0x0C, 0x10, 0x14, 0x20]) : offset.toNat ≠ n.toNat :=
    fun he => h (BitVec.eq_of_toNat_eq he ▸ hn)
  exact (if_neg (hne 0x08 (by decide))).trans <| (if_neg (hne 0x0C (by decide))).trans <|
    (if_neg (hne 0x10 (by decide))).trans <| (if_neg (hne 0x14 (by decide))).trans (if_neg (hne 0x20 (by decide)))

/-- R152: a write of COMMAND is the command word of its value. -/
theorem exec_registerWrite_command (value : Word) :
    exec (.registerWrite k (checkBit k) 0x14 4 value) s = .next (commandWord k (commandWordOf value) s) :=
  congrArg Host.Outcome.next (writeAccess_reaches value (by decide))

/-- R152: a command acts as the word that it spells. -/
theorem exec_commandOf (h : commandOf c = some (k, w)) : exec c s = .next (commandWord k w s) := by
  cases c
  case start j i => cases h; exact congrArg Host.Outcome.next (takeWord_slot (startPlan k) startCode i)
  case halt j i => cases h; exact congrArg Host.Outcome.next (takeWord_slot (haltPlan k) haltCode i)
  case release j i => cases h; exact congrArg Host.Outcome.next (takeWord_slot (releasePlan k) releaseCode i)
  case registerWrite j check offset count value =>
    unfold commandOf at h
    dsimp only at h
    split at h
    · next hcommand =>
      obtain ⟨rfl, rfl, rfl⟩ := hcommand
      cases h
      exact exec_registerWrite_command value
    · cases h
  all_goals first | (cases h; done) | (cases h; rfl)

/-- Settles O4, by the check bit, the width and the register that the write reaches. -/
theorem registerWriteForms : Obligations.RegisterWriteForms := by
  intro k offset count value s
  refine ⟨fun hcount => ?_, ?_, ?_, ?_, ?_, fun c w hc hw => ?_, fun hother => ?_, fun check hcheck => ?_, rfl, rfl⟩
  · exact congrArg Host.Outcome.next (writeAccess_ignored value fun h => hcount h.1)
  · exact congrArg Host.Outcome.next (writeAccess_reaches value (by decide))
  · exact congrArg Host.Outcome.next (writeAccess_reaches value (by decide))
  · exact congrArg Host.Outcome.next (writeAccess_reaches value (by decide))
  · exact congrArg Host.Outcome.next (writeAccess_reaches value (by decide))
  · rw [exec_registerWrite_command, hw, exec_commandOf hc]
  · refine congrArg Host.Outcome.next ?_
    by_cases haligned : offset.toNat % 4 = 0
    · exact (writeAccess_reaches value haligned).trans (writeRegister_other value hother)
    · exact writeAccess_ignored value fun h => haligned h.2
  · exact congrArg Host.Outcome.next (writeAccess_fails offset count value hcheck)

/-! ### WORK_BASE (R151) -/

theorem mem_allFour (k : Fin 4) : k ∈ allFour := by
  revert k
  decide

theorem workBaseFree_iff :
    s.workBaseFree = true ↔ s.unit.partState = .closed ∧ s.unit.openInProgress = false ∧
      ∀ j : Agent, (s.alarm j).op = .none ∧ (s.alarm j).waiting = [] ∧ (s.alarm j).take = none := by
  simp only [State.workBaseFree, Bool.and_eq_true, decide_eq_true_eq, Bool.not_eq_true', List.all_eq_true, mem_allFour,
    forall_const, List.isEmpty_iff, and_assoc]

/-- Settles O35: the writer and R151's conditions are those of `workBaseFree`. -/
theorem workBaseWritten : Obligations.WorkBaseWritten := by
  intro s k value free
  have hfree : (k = 0 ∧ s.workBaseFree = true) ↔ k = 0 ∧ free := and_congr_right fun _ => workBaseFree_iff
  exact ⟨fun h => congrArg Host.Outcome.next (if_pos (hfree.mpr h)),
    fun h => congrArg Host.Outcome.next (if_neg (mt hfree.mp h))⟩

/-! ### OPEN's command (R155) -/

theorem exec_openPart (h : s.Accepts k openCode) :
    exec (.openPart k) s = .next (openPart k (s.taken k (wordOf openCode 0 0 0))) :=
  congrArg Host.Outcome.next (takeWord_accepted _ h (show openCode ≠ resetCode by decide))

theorem openPart_opened (h : s.unit.partState = .opened) : openPart k s = postVerdict k .wrongState 0 s := if_pos h

theorem openPart_closed (h : s.unit.partState = .closed) :
    openPart k s = askRead
      { addr := s.unit.workBase, length := 64, agent := 0, requester := .commandUnit, op := .header, live := true }
      (postPending k (s.setUnit { s.unit with openInProgress := true })) :=
  if_neg (by rw [h]; decide)

/-- Settles O5, by the part state. -/
theorem openAsksForHeader : Obligations.OpenAsksForHeader := by
  intro s h
  refine ⟨fun hp => ?_, fun hp => ?_⟩
  · rw [exec_openPart h, openPart_opened (s := s.taken 0 _) hp, postVerdict_taken]
    rfl
  · have hpending := postPending_taken (s.setUnit { s.unit with openInProgress := true }) 0 (wordOf openCode 0 0 0)
    rw [exec_openPart h, openPart_closed (s := s.taken 0 _) hp, ← hpending]
    rfl

end Sys2Proof.Machine
end

section
/-! The header of the Work Area (R155): its checks in their order, and the clearing of the four alarm lists that a good header
starts (R143). -/

namespace Sys2Proof.Machine

variable {s : State} {k : Agent} {data : List Byte}

/-! ### The checks of a header (R155) -/

/-- What each of the checks 2 to 8 asks of a header; the numbers that name no check ask nothing. -/
def HeaderPasses (data : List Byte) : Nat → Prop
  | 2 => wordAt data 0 = 1
  | 3 => (windowAt data 0).isLegal = true
  | 4 => (windowAt data 1).isLegal = true
  | 5 => (windowAt data 2).isLegal = true
  | 6 => (windowAt data 3).isLegal = true
  | 7 => legalMarks (headerOf data).lowMark (headerOf data).highMark
  | 8 => (headerOf data).agingPeriod ≤ 65535
  | _ => True

/-- R155: the checks 2 to 8, one after another. -/
theorem checkHeader_accept [DecidablePred (HeaderPasses data)] :
    checkHeader (.accept data) = firstFailure (HeaderPasses data) (fun n => (.invalidSetup, BitVec.ofNat 16 n))
      (headerOf data) (List.range' 2 7) := by
  have hnot {b : Bool} : (!b) = true ↔ ¬b = true := by rw [Bool.not_eq_true', Bool.not_eq_true]
  show _ = firstFailure _ _ _ [2, 3, 4, 5, 6, 7, 8]
  refine firstFailure_cons Iff.rfl rfl <| firstFailure_cons hnot rfl <| firstFailure_cons hnot rfl <|
    firstFailure_cons hnot rfl <| firstFailure_cons hnot rfl <| firstFailure_cons ?_ rfl <|
    firstFailure_cons Nat.not_le.symm rfl rfl
  rw [hnot, Bool.and_eq_true, Bool.and_eq_true, decide_eq_true_eq, decide_eq_true_eq, decide_eq_true_eq, and_assoc]
  rfl

theorem checkHeader_fails {n : Nat} (hn : 2 ≤ n ∧ n ≤ 8) (hbefore : ∀ m : Nat, m < n → HeaderPasses data m)
    (h : ¬HeaderPasses data n) : checkHeader (.accept data) = .error (.invalidSetup, BitVec.ofNat 16 n) := by
  classical
  rw [checkHeader_accept, firstFailure_range hbefore h 7 2 hn.1 (by omega)]

theorem checkHeader_passes (h : ∀ n : Nat, n ≤ 8 → HeaderPasses data n) :
    checkHeader (.accept data) = .ok (headerOf data) := by
  classical
  rw [checkHeader_accept, firstFailure_none fun n hn => h n (by rw [List.mem_range'_1] at hn; omega)]

/-- R155 checks 3 to 6: what is asked of agent `k`'s window. -/
def LegalWindow (data : List Byte) (k : Agent) : Prop :=
  ((headerOf data).windows.get k).base.toNat % 32 = 0 ∧ ((headerOf data).windows.get k).limit.toNat % 32 = 0 ∧
    ((headerOf data).windows.get k).base.toNat < ((headerOf data).windows.get k).limit.toNat

theorem window_headerOf (data : List Byte) (k : Agent) : (headerOf data).windows.get k = windowAt data k :=
  Vector.getElem_ofFn k.isLt

theorem legalWindow_iff : LegalWindow data k ↔ (windowAt data k).isLegal = true := by
  rw [LegalWindow, window_headerOf, Window.isLegal, Bool.and_eq_true, Bool.and_eq_true, decide_eq_true_eq,
    decide_eq_true_eq, decide_eq_true_eq, and_assoc]

/-- R155: check 3 + k is that of agent `k`'s window. -/
theorem headerPasses_window (k : Agent) : HeaderPasses data (3 + k.val) ↔ LegalWindow data k := by
  rw [legalWindow_iff]
  match k with
  | 0 => rfl
  | 1 => rfl
  | 2 => rfl
  | 3 => rfl

/-- R155: the checks before check `n` are those of the format and of the windows. -/
theorem headerPasses_before {n : Nat} (hn : n ≤ 7) (hformat : 2 < n → wordAt data 0 = 1)
    (hwindows : ∀ j : Agent, 3 + j.val < n → LegalWindow data j) (m : Nat) (hm : m < n) : HeaderPasses data m := by
  have hwindow (j : Agent) (hj : 3 + j.val < n) : HeaderPasses data (3 + j.val) :=
    (headerPasses_window j).mpr (hwindows j hj)
  match m with
  | 0 => trivial
  | 1 => trivial
  | 2 => exact hformat hm
  | 3 => exact hwindow 0 hm
  | 4 => exact hwindow 1 hm
  | 5 => exact hwindow 2 hm
  | 6 => exact hwindow 3 hm
  | _ + 7 => omega

/-- R155: the checks before that of the aging period. -/
theorem headerPasses_marks (hformat : wordAt data 0 = 1) (hwindows : ∀ j : Agent, LegalWindow data j)
    (hmarks : legalMarks (headerOf data).lowMark (headerOf data).highMark) (m : Nat) (hm : m < 8) : HeaderPasses data m := by
  rcases Nat.lt_succ_iff_lt_or_eq.mp hm with hlt | rfl
  · exact headerPasses_before (Nat.le_refl 7) (fun _ => hformat) (fun j _ => hwindows j) m hlt
  · exact hmarks

/-! ### The lists that are cleared (R143) -/

/-- A list without an operation and without a take. -/
abbrev AlarmList.isFree (a : AlarmList) : Prop := a.op = .none ∧ a.take = none

/-- R143: the list after OPEN's header has been answered: a free list is cleared, another owes its clearing. -/
def AlarmList.openCleared (a : AlarmList) : AlarmList := if a.isFree then a.openClears.cleared else a.openClears

theorem AlarmList.openCleared_free {a : AlarmList} (h : a.isFree) :
    a.openCleared = { a with
      count := 0, overflow := false, waiting := [], op := .clearing, overflowOwed := false, clearOwed := false } := by
  have hop : a.op ≠ .appending := by rw [h.1]; decide
  rw [AlarmList.openCleared, if_pos h, AlarmList.openClears, if_neg hop]
  rfl

theorem AlarmList.openCleared_busy {a : AlarmList} (h : ¬a.isFree) :
    a.openCleared = { a with
      waiting := if a.op = .appending then a.waiting.take 1 else [], overflowOwed := false, clearOwed := true } :=
  if_neg h

/-- Alarm lists changed one after another, each once. -/
theorem alarm_foldl_modAlarm (f : AlarmList → AlarmList) {agents : List Agent} (hn : agents.Nodup) (k : Agent) (s : State) :
    (agents.foldl (fun t j => t.modAlarm j f) s).alarm k = if k ∈ agents then f (s.alarm k) else s.alarm k := by
  induction agents generalizing s with
  | nil => rfl
  | cons j agents ih =>
    obtain ⟨hj, hn⟩ := List.nodup_cons.mp hn
    rw [List.foldl_cons, ih hn, State.modAlarm_eq, State.alarm_setAlarm]
    by_cases h : k = j
    · subst h
      simp [hj]
    · simp [h]

/-- Changes of alarm lists change nothing else. -/
theorem foldl_modAlarm_eq (f : AlarmList → AlarmList) (agents : List Agent) (s : State) :
    agents.foldl (fun t j => t.modAlarm j f) s =
      { s with alarms := (agents.foldl (fun t j => t.modAlarm j f) s).alarms } := by
  induction agents generalizing s with
  | nil => rfl
  | cons j agents ih => rw [List.foldl_cons, ih]; rfl

/-- The state in which every list owes its clearing. -/
def State.clearsOwed (s : State) : State := allFour.foldl (fun t j => t.modAlarm j AlarmList.openClears) s

theorem nodup_allFour : allFour.Nodup := by decide

theorem alarm_clearsOwed (s : State) (k : Agent) : s.clearsOwed.alarm k = (s.alarm k).openClears :=
  (alarm_foldl_modAlarm _ nodup_allFour k s).trans (if_pos (mem_allFour k))

theorem clearReady_clearsOwed : s.clearsOwed.clearReady k = true ↔ (s.alarm k).isFree := by
  rw [State.clearReady, alarm_clearsOwed, Bool.and_eq_true, Bool.and_eq_true, decide_eq_true_eq, decide_eq_true_eq]
  exact ⟨fun h => ⟨h.1.2, h.2⟩, fun h => ⟨⟨rfl, h.1⟩, h.2⟩⟩

/-- The agents whose lists are free. -/
def State.freeLists (s : State) : List Agent := allFour.filter fun k => s.clearsOwed.clearReady k

theorem mem_freeLists : k ∈ s.freeLists ↔ (s.alarm k).isFree := by
  rw [State.freeLists, List.mem_filter, clearReady_clearsOwed, and_iff_right (mem_allFour k)]

theorem nodup_freeLists (s : State) : s.freeLists.Nodup := List.Pairwise.filter _ nodup_allFour

/-- The state in which the free lists are cleared; their writes are still to be handed over. -/
def State.listsCleared (s : State) : State := s.freeLists.foldl (fun t j => t.modAlarm j AlarmList.cleared) s.clearsOwed

theorem alarm_listsCleared (s : State) (k : Agent) : s.listsCleared.alarm k = (s.alarm k).openCleared := by
  rw [State.listsCleared, alarm_foldl_modAlarm _ (nodup_freeLists s), alarm_clearsOwed, AlarmList.openCleared]
  simp only [mem_freeLists]

theorem listsCleared_eq (s : State) : s.listsCleared = { s with alarms := s.listsCleared.alarms } := by
  have howed : s.clearsOwed = { s with alarms := s.clearsOwed.alarms } := foldl_modAlarm_eq _ _ _
  have hcleared : s.listsCleared = { s.clearsOwed with alarms := s.listsCleared.alarms } := foldl_modAlarm_eq _ _ _
  rw [hcleared, howed]

/-! ### The clearing writes (R143) -/

/-- The clearing count word write of agent `k`'s list. -/
def clearEntry (base : Word) (k : Agent) : WriteEntry :=
  { addr := alarmListAddr base k, data := [0, 0, 0, 0], agent := k, writer := .alarmUnit, op := .clearCount k }

theorem clearWrite_eq (k : Agent) (s : State) :
    clearWrite k s = s.setPort (s.port.handOver (clearEntry s.unit.workBase k)) := rfl

/-- Writes handed over one after another change the Memory Port alone. -/
theorem foldl_clearWrite (order : List Agent) (s : State) :
    order.foldl (fun t j => clearWrite j t) s =
      s.setPort (order.foldl (fun p j => p.handOver (clearEntry s.unit.workBase j)) s.port) := by
  induction order generalizing s with
  | nil => rfl
  | cons j order ih => rw [List.foldl_cons, ih, clearWrite_eq]; rfl

/-- The order of the clearing writes, and the choices made for it (log 4). -/
def State.clearOrder (s : State) : List Agent × Nat := freeOrder s.choices s.freeLists

theorem mem_clearOrder : k ∈ s.clearOrder.1 ↔ (s.alarm k).isFree :=
  (freeOrder_perm _ _).mem_iff.trans mem_freeLists

theorem nodup_clearOrder (s : State) : s.clearOrder.1.Nodup := (freeOrder_perm _ _).nodup_iff.mpr (nodup_freeLists s)

/-- R143: the lists after OPEN's header has been answered, the clearing writes handed over in a free order, and nothing else. -/
theorem clearLists_eq (s : State) :
    clearLists s = { s with
      alarms := s.listsCleared.alarms, choices := s.clearOrder.2,
      port := s.clearOrder.1.foldl (fun p j => p.handOver (clearEntry s.unit.workBase j)) s.port } := by
  have hchoices : s.listsCleared.choices = s.choices := by rw [listsCleared_eq]
  have horder : clearLists s = s.clearOrder.1.foldl (fun t j => clearWrite j t)
      (s.listsCleared.setChoices s.clearOrder.2) := by
    rw [State.clearOrder, ← hchoices]
    rfl
  rw [horder, foldl_clearWrite, listsCleared_eq]
  rfl

/-! ### The answer to the header read (R155) -/

theorem exec_headerReadAnswer {r : ReadRequest} {a : ReadAnswer} (hr : s.Reading r) (ho : r.op = .header)
    (hl : a.hasLength r.length = true) : exec (.headerReadAnswer a) s = .next (headerAnswered a s.afterRead) := by
  refine congrArg Host.Outcome.next ((answerRead_reading _ a hr (by rw [ho]; rfl) hl).trans ?_)
  rw [deliverRead, hr.2, ho]
  rfl

theorem headerAnswered_refused {a : ReadAnswer} {v : VerdictCode × Half} (hp : s.unit.openInProgress = true)
    (h : checkHeader a = .error v) :
    headerAnswered a s = postVerdict 0 v.1 v.2 (s.setUnit { s.unit with openInProgress := false }) := by
  rw [headerAnswered, hp, h]
  rfl

/-- The header of the OPEN in progress has passed its checks, and no write of the OPEN has been rejected yet. -/
abbrev State.withHeader (s : State) (h : Header) : State :=
  s.setUnit { s.unit with openHeader := some h, openRejected := false }

theorem headerAnswered_accepts {a : ReadAnswer} {h : Header} (hp : s.unit.openInProgress = true)
    (hc : checkHeader a = .ok h) : headerAnswered a s = clearLists (s.withHeader h) := by
  rw [headerAnswered, hp, hc]
  rfl

end Sys2Proof.Machine

namespace Sys2Proof

open Machine

/-- Settles O6: the first check that fails, and the lists that a good header clears by whether they are free. -/
theorem headerAnswered : Obligations.HeaderAnswered := by
  refine ⟨⟨rfl, fun data => ?_⟩, fun s r a hr ho hl hp => ?_⟩
  · intro h legal
    refine ⟨fun hformat => ?_, fun k hformat hbefore hk => ?_, fun hformat hw hm => ?_, fun hformat hw hm ha => ?_,
      fun hformat hw hm ha => ?_⟩
    · exact checkHeader_fails (n := 2) (by decide)
        (headerPasses_before (by decide) (fun hlt => absurd hlt (by decide)) fun j hj => by omega) hformat
    · exact checkHeader_fails (by omega)
        (headerPasses_before (by omega) (fun _ => hformat) fun j hj => hbefore j (by omega))
        (mt (headerPasses_window k).mp hk)
    · exact checkHeader_fails (by decide) (headerPasses_before (by decide) (fun _ => hformat) fun j _ => hw j) hm
    · exact checkHeader_fails (by decide) (headerPasses_marks hformat hw hm) (Nat.not_le.mpr ha)
    · refine checkHeader_passes fun n hn => ?_
      rcases Nat.lt_or_eq_of_le hn with hlt | rfl
      · exact headerPasses_marks hformat hw hm n hlt
      · exact ha
  · refine ⟨fun v hv => ?_, fun h hc => ?_⟩
    · rw [exec_headerReadAnswer hr ho hl, headerAnswered_refused (s := s.afterRead) hp hv]
      rfl
    · intro isFree clearing
      have halarm (k : Agent) : (clearLists (s.afterRead.withHeader h)).alarm k = (s.alarm k).openCleared := by
        rw [clearLists_eq]
        exact alarm_listsCleared _ k
      refine ⟨clearLists (s.afterRead.withHeader h), ?_, ?_, fun k hk => ?_, fun k hk => ?_,
        ⟨(s.afterRead.withHeader h).clearOrder.1, nodup_clearOrder _, fun k => mem_clearOrder, ?_⟩, ?_⟩
      · rw [exec_headerReadAnswer hr ho hl, headerAnswered_accepts (s := s.afterRead) hp hc]
      · rw [clearLists_eq]
        rfl
      · exact (halarm k).trans (AlarmList.openCleared_free hk)
      · exact (halarm k).trans (AlarmList.openCleared_busy hk)
      · rw [clearLists_eq]
        rfl
      · rw [clearLists_eq]
        exact ⟨rfl, rfl, rfl, rfl, rfl, rfl, rfl, rfl, rfl, rfl⟩

end Sys2Proof
end

section
/-! The answers to the clearing writes (R143), and the step in which OPEN completes (R155). -/

namespace Sys2Proof.Machine

variable {s : State} {k : Agent} {h : Header} {a : WriteAnswer}

/-! ### A clearing write is answered (R143) -/

/-- R143, R147: the list is free, and a rejected write is logged and noted for the verdict. -/
def State.clearEnded (s : State) (k : Agent) (a : WriteAnswer) : State :=
  ((s.logReject a .alarmLost 0 0 k).setAlarm k { s.alarm k with op := .none }).setUnit
    { s.unit with openRejected := s.unit.openRejected || decide (a = .reject) }

theorem clearEnded_eq (s : State) (k : Agent) (a : WriteAnswer) :
    s.clearEnded k a = { s with
      unit := { s.unit with openRejected := s.unit.openRejected || decide (a = .reject) },
      alarms := upd s.alarms k { s.alarm k with op := .none }, log := (s.logReject a .alarmLost 0 0 k).log } := by
  cases a <;> rfl

theorem alarm_clearEnded (s : State) (k j : Agent) (a : WriteAnswer) :
    (s.clearEnded k a).alarm j = if j = k then { s.alarm k with op := .none } else s.alarm j := by
  rw [clearEnded_eq]
  exact get_upd _ _ _ _

/-- A list with nothing to do after its clearing leaves it to the OPEN to go on. -/
theorem clearAnswered_eq (ht : (s.alarm k).take = none) (hc : (s.alarm k).clearOwed = false)
    (hw : (s.alarm k).waiting = []) (hv : (s.alarm k).overflowOwed = false) :
    clearAnswered k (acceptedBy a) s = advanceOpen (s.clearEnded k a) := by
  unfold clearAnswered
  rw [countWordLost_eq, State.modAlarm_eq, alarm_logReject, pumpList_idle (by rw [State.alarm_setAlarm_self])
    (by rwa [State.alarm_setAlarm_self]) (by rwa [State.alarm_setAlarm_self]) (by rwa [State.alarm_setAlarm_self])
    (by rwa [State.alarm_setAlarm_self])]
  cases a <;> rfl

theorem exec_clearCountWriteAnswer {e : WriteEntry} (hw : s.Writing e) (he : e.op = .clearCount k) :
    exec (.clearCountWriteAnswer a) s = .next (clearAnswered k (acceptedBy a) s.afterWrite) :=
  congrArg Host.Outcome.next (answerWrite_op _ a hw he rfl)

/-! ### The OPEN goes on (R155) -/

theorem allCleared_iff :
    s.allCleared = true ↔ ∀ j : Agent, (s.alarm j).clearOwed = false ∧ (s.alarm j).op ≠ .clearing := by
  simp only [State.allCleared, List.all_eq_true, Bool.and_eq_true, Bool.not_eq_true', decide_eq_true_eq, mem_allFour,
    forall_const]

/-- The list whose write has been answered is cleared; it is for the others to be. -/
theorem allCleared_clearEnded (hc : (s.alarm k).clearOwed = false) :
    (s.clearEnded k a).allCleared = true ↔
      ∀ j : Agent, j ≠ k → (s.alarm j).clearOwed = false ∧ (s.alarm j).op ≠ .clearing := by
  rw [allCleared_iff]
  refine forall_congr' fun j => ?_
  rw [alarm_clearEnded]
  split
  · next hj => exact ⟨fun _ hne => absurd hj hne, fun _ => ⟨hc, nofun⟩⟩
  · next hj => exact ⟨fun hcleared _ => hcleared, fun hcleared => hcleared hj⟩

section
variable (hp : s.unit.openInProgress = true) (hh : s.unit.openHeader = some h)
include hp hh

theorem advanceOpen_waits (hc : ¬s.allCleared = true) : advanceOpen s = s := by
  rw [advanceOpen, hp, hh]
  exact if_neg hc

theorem advanceOpen_completes (hc : s.allCleared = true) : advanceOpen s = completeOpen h s := by
  rw [advanceOpen, hp, hh]
  exact if_pos hc

end

/-! ### The OPEN completes (R155) -/

/-- R155: the aging period is set on every line. -/
theorem sched_foldl_agingPeriod (n : Nat) (s : State) (l : Line) :
    (allFour.foldl (fun t m => t.modSched m fun x => { x with agingPeriod := n }) s).sched l =
      { s.sched l with agingPeriod := n } := by
  match l with
  | 0 => simp [allFour, State.sched_setSched]
  | 1 => simp [allFour, State.sched_setSched]
  | 2 => simp [allFour, State.sched_setSched]
  | 3 => simp [allFour, State.sched_setSched]

/-- R155: what the step leaves alone, and what it does to the Memory Port and the backlog. -/
theorem completeOpen_eq (h : Header) (s : State) :
    completeOpen h s = { s with
      unit := (completeOpen h s).unit, scheds := (completeOpen h s).scheds,
      port := { s.port with windows := h.windows },
      backlog := { s.backlog with lowMark := h.lowMark, highMark := h.highMark, hold := false } } := by
  cases s
  rfl

theorem sched_completeOpen (h : Header) (s : State) (l : Line) :
    (completeOpen h s).sched l = { s.sched l with agingPeriod := h.agingPeriod } :=
  sched_foldl_agingPeriod h.agingPeriod _ l

theorem bank_completeOpen (h : Header) (s : State) (j : Agent) :
    (completeOpen h s).bank j =
      if j = 0 then (s.bank 0).post .done (writeValue (!s.unit.openRejected)) else s.bank j :=
  get_upd _ _ _ _

theorem writeValue_rejected (b : Bool) (a : WriteAnswer) :
    writeValue (!(b || decide (a = .reject))) = if b = true ∨ a = .reject then 1 else 0 := by
  cases b <;> cases a <;> rfl

/-- Settles O7, by whether the answered write is the last one that the OPEN waits for. -/
theorem openCompletes : Obligations.OpenCompletes := by
  intro s e k h a hw he u hp hh ho ht hc hwaiting hv
  have hexec : exec (.clearCountWriteAnswer a) s = .next (advanceOpen (u.clearEnded k a)) := by
    rw [exec_clearCountWriteAnswer hw he, clearAnswered_eq ht hc hwaiting hv]
  have hp' : (u.clearEnded k a).unit.openInProgress = true := hp
  have hh' : (u.clearEnded k a).unit.openHeader = some h := hh
  refine ⟨fun ⟨j, hj, hleft⟩ => ?_, fun hothers => ?_⟩
  · have hnot : ¬(u.clearEnded k a).allCleared = true := fun hall => by
      obtain ⟨howed, hop⟩ := (allCleared_clearEnded hc).mp hall j hj
      exact hleft.elim (fun howed' => Bool.noConfusion (howed.symm.trans howed')) hop
    rw [hexec, advanceOpen_waits hp' hh' hnot]
    rfl
  · have halarm (j : Agent) : (completeOpen h (u.clearEnded k a)).alarm j =
        if j = k then { u.alarm k with op := .none } else u.alarm j := alarm_clearEnded u k j a
    have hbank (j : Agent) : (completeOpen h (u.clearEnded k a)).bank j =
        if j = 0 then (u.bank 0).post .done (writeValue (!(u.clearEnded k a).unit.openRejected)) else u.bank j :=
      bank_completeOpen h (u.clearEnded k a) j
    have hsched (l : Line) := sched_completeOpen h (u.clearEnded k a) l
    refine ⟨completeOpen h (u.clearEnded k a), ?_, rfl, rfl, rfl, ?_, ?_, fun l => ?_, ?_, ?_,
      fun j hj => (hbank j).trans (if_neg hj), (halarm k).trans (if_pos rfl), fun j hj => (halarm j).trans (if_neg hj), ?_⟩
    · rw [hexec, advanceOpen_completes hp' hh' ((allCleared_clearEnded hc).mpr hothers)]
    · rw [completeOpen_eq, clearEnded_eq]
    · rw [completeOpen_eq, clearEnded_eq]
    · rw [hsched, clearEnded_eq]
      rfl
    · rw [hbank, if_pos rfl]
      rfl
    · rw [hbank, if_pos rfl, ← writeValue_rejected]
      rfl
    · rw [completeOpen_eq, clearEnded_eq]
      exact ⟨rfl, rfl, rfl, rfl, rfl, rfl, rfl⟩

end Sys2Proof.Machine
end

section
/-! The resets (R157, R158): what every block holds at reset, after the reset pin and after RESET_PART. -/

namespace Sys2Proof.Machine

variable {s : State} {k : Agent} {l : Line}

/-! ### The blocks at reset -/

theorem get_replicate {α : Type} {n : Nat} (x : α) (i : Fin n) : (Vector.replicate n x).get i = x :=
  Vector.getElem_replicate i.isLt

@[simp] theorem bank_reset (k : Agent) : State.reset.bank k = Bank.reset := get_replicate _ k
@[simp] theorem plan_reset (i : Slot) : State.reset.plan i = Plan.reset := get_replicate _ i
@[simp] theorem mask_reset (k : Agent) : State.reset.mask k = 0 := get_replicate _ k
@[simp] theorem sched_reset (l : Line) : State.reset.sched l = Scheduler.reset := get_replicate _ l
@[simp] theorem walk_reset (l : Line) : State.reset.walk l = Walk.reset := get_replicate _ l
@[simp] theorem exch_reset (l : Line) : State.reset.exch l = Exchange.reset := get_replicate _ l
@[simp] theorem lineCtl_reset (l : Line) : State.reset.lineCtl l = LineController.reset := get_replicate _ l
@[simp] theorem driver_reset (l : Line) : State.reset.driver l = Driver.reset := get_replicate _ l
@[simp] theorem alarm_reset (k : Agent) : State.reset.alarm k = AlarmList.reset := get_replicate _ k
@[simp] theorem way_reset (n : Fin 64) : State.reset.way n = Way.reset := get_replicate _ n
@[simp] theorem window_reset (k : Agent) : State.reset.port.window k = Window.reset := get_replicate _ k

/-- R145: no condition that is not enabled raises an attention line. -/
theorem attention_disabled (h : (s.bank k).enable = 0) : s.attention k = false := by
  rw [State.attention, h]
  exact decide_eq_false (not_not_intro BitVec.and_zero)

/-- R127: the driver of a DISABLED line floats. -/
theorem driverLevel_disabled (h : (s.lineCtl l).state = .disabled) : s.driverLevel l = .floats := by
  rw [State.driverLevel, h]

/-- Settles O2, block by block. -/
theorem resetState : Obligations.ResetState := by
  refine ⟨rfl, rfl, rfl, rfl, fun k => ?_, fun i => ?_, rfl, rfl, rfl, rfl, fun l => ?_, fun n => ?_, rfl, fun i => ?_,
    rfl, rfl, rfl, rfl, rfl, rfl, rfl, rfl, rfl, rfl, rfl, rfl, rfl⟩
  · rw [bank_reset, mask_reset, alarm_reset, window_reset]
    exact ⟨rfl, rfl, rfl, rfl, rfl, attention_disabled (by rw [bank_reset]; rfl), rfl, rfl, rfl, rfl, rfl, rfl, rfl⟩
  · rw [plan_reset]
    exact ⟨rfl, rfl⟩
  · rw [driverLevel_disabled (by rw [lineCtl_reset]; rfl), lineCtl_reset, sched_reset, walk_reset, exch_reset, driver_reset]
    exact ⟨rfl, rfl, rfl, rfl, rfl, rfl, rfl, rfl, rfl, rfl, rfl, rfl, rfl, rfl, rfl⟩
  · rw [way_reset]
    rfl
  · exact ⟨get_replicate _ i, get_replicate _ i⟩

/-- Settles O60: at reset every plan is IDLE, every line DISABLED, and every list empty. -/
theorem lawsHoldAtReset : Obligations.LawsHoldAtReset := by
  have hidle (i : Slot) : (State.reset.plan i).state = .idle := by rw [plan_reset]; rfl
  have hdisabled (l : Line) : (State.reset.lineCtl l).state = .disabled := by rw [lineCtl_reset]; rfl
  refine ⟨.of_none (fun i => ?_) mask_reset rfl, .of_closed rfl rfl, ⟨nofun, nofun⟩, .of_idle hidle,
    fun _ => ⟨hdisabled, hidle⟩, fun k => ?_, Nat.zero_le _, fun l => ?_, fun i => ?_, rfl, fun n => ?_⟩
  · rw [hidle]
    nofun
  · rw [alarm_reset]
    exact Nat.zero_le _
  · rw [lineCtl_reset]
    exact Nat.zero_le _
  · rw [plan_reset]
    exact classFits_reset
  · rw [way_reset]
    exact Nat.zero_le _

/-! ### The reset pin (R157) -/

theorem driver_resetBlocks (s : State) (l : Line) : (resetBlocks s).driver l = (s.driver l).afterReset :=
  Vector.getElem_map _ l.isLt

theorem bank_pinReset (s : State) (k : Agent) : (pinReset s).bank k = Bank.reset := get_replicate _ k

/-- Settles O9: the Command Unit and the Fault Log by their reset values, every other block as `resetBlocks` leaves it. -/
theorem resetPinClears : Obligations.ResetPinClears := by
  intro s
  refine ⟨pinReset s, rfl, rfl, rfl, rfl, rfl, rfl,
    fun l => ⟨get_replicate _ l, get_replicate _ l, get_replicate _ l, ?_⟩, rfl,
    fun k => ⟨get_replicate _ k, attention_disabled (by rw [bank_pinReset]; rfl)⟩, rfl, rfl, rfl, rfl, rfl, rfl, rfl⟩
  have hline : (pinReset s).lineCtl l = (s.lineCtl l).afterReset := lineCtl_resetBlocks s l
  exact ⟨hline, driver_resetBlocks s l, driverLevel_disabled (by rw [hline]; rfl)⟩

/-! ### RESET_PART (R158) -/

theorem afterResetPart_abandons {b : Bank} {w : CommandWord} (h : b.command = some w) :
    b.afterResetPart = { Bank.reset with verdict := { code := .abandoned, value := 0, command := w.code } } := by
  rw [Bank.afterResetPart, Bank.commandCode, h]
  rfl

theorem afterResetPart_keeps {b : Bank} (h : b.command = none) :
    b.afterResetPart = { Bank.reset with verdict := b.verdict } := by
  rw [Bank.afterResetPart, h]
  rfl

/-- R158: agent 0's verdict is DONE, and the other banks are reset with their verdicts. -/
theorem bank_partReset (s : State) (k : Agent) :
    (partReset 0 s).bank k = if k = 0 then
      { Bank.reset with verdict := { code := .done, value := 0, command := resetCode } } else (s.bank k).afterResetPart := by
  have hbank (j : Agent) : ((resetBlocks s).setUnit s.unit.afterResetPart).bank j = (s.bank j).afterResetPart :=
    Vector.getElem_map _ j.isLt
  refine (State.bank_setBank _ 0 k _).trans (ite_congr rfl (fun _ => ?_) fun _ => hbank k)
  rw [hbank 0]
  rfl

theorem enable_partReset (s : State) (k : Agent) : ((partReset 0 s).bank k).enable = 0 := by
  rw [bank_partReset]
  split
  · rfl
  · rfl

/-- Settles O10: the banks by whether a command is in progress, every other block as `resetBlocks` leaves it. -/
theorem resetPartClears : Obligations.ResetPartClears := by
  intro s
  refine ⟨partReset 0 s, exec_resetPart s, rfl, rfl, rfl, rfl, rfl, rfl, rfl, bank_partReset s 0, fun k hk => ?_, rfl, rfl,
    fun l => ⟨get_replicate _ l, get_replicate _ l, get_replicate _ l, lineCtl_resetBlocks s l, driver_resetBlocks s l⟩,
    rfl, fun k => ⟨get_replicate _ k, attention_disabled (enable_partReset s k)⟩, rfl, rfl, rfl, rfl, rfl, rfl, rfl⟩
  rw [bank_partReset, if_neg hk]
  cases hc : (s.bank k).command with
  | none => exact afterResetPart_keeps hc
  | some w => exact afterResetPart_abandons hc

end Sys2Proof.Machine
end

section
/-! What the Memory Port issues: the reads that are ready, the rotation, the preference (R164, R165); and the answer that does
not come (R166, R167). -/

namespace Sys2Proof.Machine

/-! ### Ranges of bytes that meet (R164) -/

/-- R164: the later of two meeting ranges begins inside the other, also across the top of the address space. -/
theorem overlaps_iff_shared {a b : Word} {n m : Nat} (hn : 1 ≤ n) (hn' : n ≤ 240) (hm : 1 ≤ m) (hm' : m ≤ 240) :
    overlaps a n b m = true ↔ ∃ i j : Nat, i < n ∧ j < m ∧ a + BitVec.ofNat 32 i = b + BitVec.ofNat 32 j := by
  unfold overlaps
  rw [Bool.or_eq_true, decide_eq_true_eq, decide_eq_true_eq]
  constructor
  · rintro (h | h)
    · exact ⟨(b - a).toNat, 0, h, hm, by rw [BitVec.ofNat_toNat]; bv_omega⟩
    · exact ⟨0, (a - b).toNat, hn, h, by rw [BitVec.ofNat_toNat]; bv_omega⟩
  · rintro ⟨i, j, hi, hj, hij⟩
    rcases Nat.le_total j i with hle | hle
    · left
      bv_omega
    · right
      bv_omega

/-! ### The rotation of the requesters (R164) -/

variable {q n : Requester} {before after skipped rest : List Requester}

theorem mem_rotation (q : Requester) : q ∈ rotation := by
  cases q with
  | engine l =>
    revert l
    decide
  | driver l =>
    revert l
    decide
  | _ => decide

theorem nodup_rotation : rotation.Nodup := by decide

/-- Every requester has its turn from any position on. -/
theorem mem_rotationFrom (x q : Requester) : x ∈ rotationFrom q := by
  have hx := mem_rotation x
  rw [← List.takeWhile_append_dropWhile (p := fun x => decide (x ≠ q)) (l := rotation), List.mem_append] at hx
  exact List.mem_append.mpr hx.symm

theorem rotationFrom_of_split (h : rotation = before ++ q :: after) : rotationFrom q = q :: after ++ before := by
  have hbefore : ∀ x ∈ before, decide (x ≠ q) = true := by
    intro x hx
    obtain ⟨_, _, hdisjoint⟩ := List.nodup_append.mp (h ▸ nodup_rotation)
    exact decide_eq_true (hdisjoint x hx q List.mem_cons_self)
  unfold rotationFrom
  rw [h, List.dropWhile_append_of_pos hbefore, List.takeWhile_append_of_pos hbefore, List.dropWhile_cons_of_neg (by simp),
    List.takeWhile_cons_of_neg (by simp), List.append_nil]

/-- A requester met in its turn begins its own rotation; those passed over come last in it. -/
theorem rotationFrom_of_turn {x : Requester} (h : rotation = before ++ x :: after)
    (hturn : x :: after ++ before = skipped ++ q :: rest) : rotationFrom q = q :: rest ++ skipped := by
  rcases List.append_eq_append_iff.mp hturn with ⟨between, hskip, hbefore⟩ | ⟨between, hafter, hrest⟩
  · rw [hbefore, List.append_assoc, List.cons_append] at h
    rw [rotationFrom_of_split h, hskip]
    simp
  · cases between with
    | nil =>
      rw [List.nil_append] at hrest
      rw [List.append_nil] at hafter
      rw [← hrest] at h
      rw [rotationFrom_of_split (before := []) h, ← hafter]
      simp
    | cons y between =>
      obtain ⟨rfl, rfl⟩ := List.cons.inj hrest
      rw [hafter, ← List.append_assoc] at h
      rw [rotationFrom_of_split h]
      simp

theorem nextRequester_of_turn {tail : List Requester} (h : rotationFrom q = q :: n :: tail) : nextRequester q = n := by
  unfold nextRequester
  rw [h]

/-! ### The read to be issued (R164) -/

variable {p : Port} {r : ReadRequest} {older younger : List ReadRequest}

theorem ready_iff (p : Port) (r : ReadRequest) :
    p.ready r = true ↔ ∀ e ∈ p.queue, overlaps r.addr r.length e.addr e.data.length = false := by
  unfold Port.ready
  simp only [List.all_eq_true, Bool.not_eq_true']

theorem oldestReady_eq_none_iff :
    p.oldestReady q = none ↔ ∀ x ∈ p.reads, x.requester = q → p.ready x = false := by
  unfold Port.oldestReady
  simp

theorem oldestReady_of_split (h : p.reads = older ++ r :: younger)
    (hback : ∀ x ∈ older, x.requester = q → p.ready x = false) (hq : r.requester = q) (hr : p.ready r = true) :
    p.oldestReady q = some r := by
  refine List.find?_eq_some_iff_append.mpr ⟨by simp [hq, hr], older, younger, h, fun x hx => ?_⟩
  simpa [Classical.or_iff_not_imp_left] using hback x hx

theorem chooseRead_spec (h : p.chooseRead = some r) : r ∈ p.reads ∧ p.ready r = true := by
  obtain ⟨q, _, hq⟩ := List.exists_of_findSome?_eq_some h
  have hready := List.find?_some hq
  rw [Bool.and_eq_true] at hready
  exact ⟨List.mem_of_find?_eq_some hq, hready.2⟩

theorem chooseRead_eq_none_iff : p.chooseRead = none ↔ ∀ x ∈ p.reads, p.ready x = false := by
  unfold Port.chooseRead
  simp only [List.findSome?_eq_none_iff, oldestReady_eq_none_iff]
  exact ⟨fun h x hx => h x.requester (mem_rotationFrom _ _) x hx rfl, fun h _ _ x hx _ => h x hx⟩

/-- R164: the first requester in turn that has a ready read is served. -/
theorem chooseRead_of_turn (h : rotationFrom p.rotation = skipped ++ q :: rest)
    (hskip : ∀ x ∈ p.reads, x.requester ∈ skipped → p.ready x = false) (hq : p.oldestReady q = some r) :
    p.chooseRead = some r := by
  have hnone : skipped.findSome? p.oldestReady = none :=
    List.findSome?_eq_none_iff.mpr fun y hy => oldestReady_eq_none_iff.mpr fun x hx hxy => hskip x hx (hxy ▸ hy)
  unfold Port.chooseRead
  rw [h, List.findSome?_append, hnone, Option.none_or, List.findSome?_cons, hq]

/-- The read served leaves the list of reads: an older equal one would have been ready before it. -/
theorem erase_of_oldest (h : p.reads = older ++ r :: younger)
    (hback : ∀ x ∈ older, x.requester = r.requester → p.ready x = false) (hr : p.ready r = true) :
    p.reads.erase r = older ++ younger := by
  have hnot : r ∉ older := fun hmem => Bool.false_ne_true ((hback r hmem rfl).symm.trans hr)
  rw [h, List.erase_append_right _ hnot, List.erase_cons_head]

/-! ### What the port issues (R165) -/

theorem issue_busy (h : p.bus ≠ none) : p.issue = p := if_pos (Option.isSome_iff_ne_none.mpr h)

theorem issue_chosen (hb : p.bus = none) (hc : p.chooseRead = some r) (hp : p.preference = .reads ∨ p.queue = []) :
    p.issue = p.issueRead r := by
  rw [Port.issue, hb, hc]
  rcases hp with hp | hq
  · rw [hp]
    rfl
  · rw [hq]
    cases p.preference <;> rfl

theorem issue_head (hb : p.bus = none) (hq : p.queue ≠ []) (hp : p.preference = .writes ∨ p.chooseRead = none) :
    p.issue = p.issueWrite := by
  obtain ⟨e, others, hq⟩ := List.exists_cons_of_ne_nil hq
  rw [Port.issue, hb, hq]
  rcases hp with hp | hc
  · rw [hp]
    rfl
  · rw [hc]
    cases p.preference <;> rfl

theorem issue_nothing (hb : p.bus = none) (hq : p.queue = []) (hc : p.chooseRead = none) : p.issue = p := by
  rw [Port.issue, hb, hq, hc]
  cases p.preference <;> rfl

variable {s : State} {e : WriteEntry}

theorem exec_requestIssue {x : Port} (h : s.port.issue = x) : exec .requestIssue s = .next (s.setPort x) :=
  congrArg (fun x => Host.Outcome.next (s.setPort x)) h

/-! ### The head of the queue leaves (R163, R165) -/

theorem leaveHead_cons {others : List WriteEntry} (h : p.queue = e :: others) :
    p.leaveHead = { p with queue := others, bus := none, answerTimer := .stopped,
                           preference := if others.length ≤ 4 then .reads else p.preference } := by
  unfold Port.leaveHead
  rw [h]
  rfl

/-! ### The answer that does not come (R166, R167) -/

theorem answerTimesOut_stopped (h : s.port.answerTimer = .stopped) : answerTimesOut s = s := by
  rw [answerTimesOut, h]
  rfl

theorem answerTimesOut_read (h : s.port.answerTimer.isRunning = true) (hb : s.port.bus = some (.read r)) :
    answerTimesOut s = deliverRead r .reject s.afterRead := by
  rw [answerTimesOut, h, hb]
  rfl

theorem answerTimesOut_write (h : s.port.answerTimer.isRunning = true) (hw : s.Writing e) :
    answerTimesOut s = deliverWrite e false s.afterWrite := by
  obtain ⟨others, hq⟩ := List.head?_eq_some_iff.mp hw.2
  rw [answerTimesOut, h, hw.1, hq]
  rfl

theorem answerTimesOut_orphan (h : s.port.answerTimer.isRunning = true) (hb : s.port.bus = some (.orphan e)) :
    answerTimesOut s = s.setPort s.port.release := by
  rw [answerTimesOut, h, hb]
  rfl

/-- R44, R167: the answer to a read that no block takes any more reaches nothing. -/
theorem deliverRead_dead (h : r.live = false) (a : ReadAnswer) (s : State) : deliverRead r a s = s :=
  if_pos (by rw [h]; rfl)

/-- R166: the read ends as memory's reject of its kind ends it. -/
theorem answerTimesOut_eq_answerRead {op : ReadOp} (isKind : ReadOp → Bool) (h : s.port.answerTimer.isRunning = true)
    (hb : s.port.bus = some (.read r)) (ho : r.op = op) (hk : isKind op = true) :
    answerTimesOut s = answerRead isKind .reject s := by
  rw [answerTimesOut_read h hb, answerRead, hb]
  simp only [ho, hk, ReadAnswer.hasLength, Bool.and_true, if_true]
  rfl

/-- R166: the write ends as memory's reject of its kind ends it. -/
theorem answerTimesOut_eq_answerWrite {op : WriteOp} (isKind : WriteOp → Bool) (h : s.port.answerTimer.isRunning = true)
    (hw : s.Writing e) (ho : e.op = op) (hk : isKind op = true) : answerTimesOut s = answerWrite isKind .reject s :=
  (answerTimesOut_write h hw).trans (answerWrite_writing isKind .reject hw (ho ▸ hk)).symm

end Sys2Proof.Machine

namespace Sys2Proof

open Machine

/-- Settles O56: the read chosen by readiness and rotation, what is issued by the preference and what moves it, and the timeout
as the reject of the row that answers the request. -/
theorem portIssues : Obligations.PortIssues := by
  refine ⟨fun s r => ?_, fun s before after skipped rest tail q n older younger r => ?_, fun s hb hnone => ?_,
    fun a b n m => overlaps_iff_shared, fun p e others => ⟨rfl, leaveHead_cons⟩, fun s => ⟨fun h => ?_, fun h => ?_⟩,
    fun s h => ⟨fun r hb => ?_, fun e hw => ?_⟩⟩
  · exact ⟨ready_iff _ r, chooseRead_spec, chooseRead_eq_none_iff, fun hb => exec_requestIssue (issue_busy hb), fun hb =>
      ⟨fun hc hp => exec_requestIssue (issue_chosen hb hc hp), fun hq hp => exec_requestIssue (issue_head hb hq hp),
        fun hq hc => exec_requestIssue (issue_nothing hb hq hc)⟩⟩
  · intro p order hposition hturn hnext hskip hreads hback hq hready hb
    have hfrom : rotationFrom p.rotation = skipped ++ q :: rest := (rotationFrom_of_split hposition).trans hturn
    have hchosen : p.chooseRead = some r :=
      chooseRead_of_turn hfrom hskip (oldestReady_of_split hreads hback hq hready)
    refine ⟨fun hp => ?_, fun hp hne => exec_requestIssue (issue_head hb hne (.inl hp))⟩
    have hafter : nextRequester r.requester = n := by
      rw [hq]
      exact nextRequester_of_turn ((rotationFrom_of_turn hposition hturn).trans (congrArg (q :: ·) hnext))
    refine exec_requestIssue ((issue_chosen hb hchosen hp).trans ?_)
    rw [Port.issueRead, hafter, erase_of_oldest hreads (hq ▸ hback) hready]
    rfl
  · have hc := chooseRead_eq_none_iff.mpr hnone
    exact ⟨fun hq => exec_requestIssue (issue_head hb hq (.inr hc)), fun hq => exec_requestIssue (issue_nothing hb hq hc)⟩
  · exact congrArg Host.Outcome.next (answerTimesOut_stopped h)
  · exact ⟨fun r hb => ⟨congrArg Host.Outcome.next (answerTimesOut_read h hb), fun hl => deliverRead_dead hl _ _⟩,
      fun e hw => congrArg Host.Outcome.next (answerTimesOut_write h hw),
      fun e hb => congrArg Host.Outcome.next (answerTimesOut_orphan h hb)⟩
  · have row {op : ReadOp} {isKind : ReadOp → Bool} (ho : r.op = op) (hk : isKind op = true) :
        exec .answerTimeout s = .next (answerRead isKind .reject s) :=
      congrArg Host.Outcome.next (answerTimesOut_eq_answerRead isKind h hb ho hk)
    exact ⟨fun ho => row ho rfl, fun _ ho => row ho rfl, fun _ ho => row ho rfl, fun _ ho => row ho rfl,
      fun _ ho => row ho rfl, fun _ ho => row ho rfl, fun _ ho => row ho rfl⟩
  · have row {op : WriteOp} {isKind : WriteOp → Bool} (ho : e.op = op) (hk : isKind op = true) :
        exec .answerTimeout s = .next (answerWrite isKind .reject s) :=
      congrArg Host.Outcome.next (answerTimesOut_eq_answerWrite isKind h hw ho hk)
    exact ⟨fun _ _ _ ho => row ho rfl, fun _ _ _ ho => row ho rfl, fun _ ho => row ho rfl, fun _ _ ho => row ho rfl,
      fun _ ho => row ho rfl, fun _ => ⟨fun ho => row ho rfl, fun ho => ho.elim (row · rfl) (row · rfl),
        fun ho => row ho rfl, fun ho => row ho rfl, fun ho => row ho rfl⟩, fun _ => ⟨fun ho => row ho rfl, fun ho => row ho rfl⟩⟩

end Sys2Proof
end

section
/-! The step, one equation per form of the command queue. -/

namespace Sys2Proof.Machine

/-- The command at the front runs on the state that no longer holds it. -/
theorem step_of_pending_cons {c : Instr} {rest : List Instr} {s : State} (h : s.pending = c :: rest) :
    step s = exec c (s.setPending rest) := by
  rw [step, h]

/-- The part idles on an empty queue (log 15). -/
theorem step_of_pending_nil {s : State} (h : s.pending = []) : step s = .next s := by
  rw [step, h]

end Sys2Proof.Machine

namespace Sys2Proof

open Machine

/-- Settles O1, by the two forms of the command queue. -/
theorem stepRunsFrontCommand : Obligations.StepRunsFrontCommand :=
  ⟨fun _ _ _ => step_of_pending_cons, fun _ => step_of_pending_nil⟩

end Sys2Proof
end
